-- ==== Sys2Proof/Word.lean ====
section
/-! DEFINITION. The word types of RSSIPIPE (00_scope.md R7, R9): what the spec treats as a word of bits is a `BitVec`,
bit 0 the least significant; the frame index, which no rule shifts or masks in storage, is a number below 27. -/

namespace Sys2Proof

/-- An 8-bit word: a magnitude, a `MINW` entry, `EST` (R7 `MAG_W` = 8), and the `rssi` operand (R7 `RSSI_W` = 8). -/
abbrev Byte := BitVec 8

/-- A timestamp: a `u32` tick count (R7 `TS_W` = 32, R20). -/
abbrev Tick := BitVec 32

/-- A transaction word `TW[41:0]` (30_encoding.md R61). -/
abbrev TWord := BitVec 42

/-- A display frame index, 0..26 (R7 `IDX_W`, 10_state.md R29: "display frame index ∈ [0,26]"). -/
abbrev Index := Fin 27

end Sys2Proof
end

