-- ==== Sys2Proof/Syntax.lean ====
section
/-! DEFINITION. The operations of RSSIPIPE as syntax: one constructor per row of spec/opcode_table.json, in its order
(00_scope.md R3, 30_encoding.md R64). -/

namespace Sys2Proof

/-- The four operations. An operand is the field of the transaction word (R61, R62); every value of one is legal (R66). -/
inductive Instr where
  /-- `BCNX ts`: beacon without RSSI; `ts` is carried by the canonical word and ignored by the block (R65, R80). -/
  | bcnx (ts : Tick)
  /-- `BCN ts, rssi`: beacon with RSSI, `rssi` in two's complement (R62, R81). -/
  | bcn (ts : Tick) (rssi : Byte)
  /-- `DTICK`: one firing of the display interrupt (R123). -/
  | dtick
  /-- `RDEST`: read the estimate (R122). -/
  | rdest
  deriving DecidableEq, Repr

end Sys2Proof
end

