-- ==== Sys2Proof/WellFormed.lean ====
section
/-! DEFINITION. Well-formedness. An operation as the block receives it has nothing to check (30_encoding.md R66: every
operand value is legal). The textual form of 30_encoding.md R68 does: a line names numbers, and a number must fit its field. -/

namespace Sys2Proof

/-- R66: "every value of `rssi` (-128..127) and of `ts` (0..2^32-1) is a legal operand with defined behaviour". -/
def Instr.wellFormed (i : Instr) : Bool :=
  match i with
  | .bcnx _ => true
  | .bcn _ _ => true
  | .dtick => true
  | .rdest => true

/-- One line of the textual form (R68), its numbers as written. `rst` is the pseudo-event `RST`, "not a transaction". -/
inductive Line where
  | bcnx (ts : Nat)
  | bcn (ts : Nat) (rssi : Int)
  | dtick
  | rdest
  | rst
  deriving DecidableEq, Repr

/-- R68: "ts: 0..4294967295". -/
def tsInRange (ts : Nat) : Bool := decide (ts ≤ 4294967295)

/-- R68: "rssi: -128..127". -/
def rssiInRange (rssi : Int) : Bool := decide (-128 ≤ rssi) && decide (rssi ≤ 127)

/-- The ranges of R68 hold for every number of the line. -/
def Line.wellFormed (l : Line) : Bool :=
  match l with
  | .bcnx ts => tsInRange ts
  | .bcn ts rssi => tsInRange ts && rssiInRange rssi
  | .dtick => true
  | .rdest => true
  | .rst => true

end Sys2Proof
end

