-- ==== Sys2Proof/Decode.lean ====
section
/-! DEFINITION. Decoding and encoding: the 42-bit transaction word (30_encoding.md R61 to R66), the encoding function (R69),
the opcode table (R64), the byte container of test files (92_eei_decisions.md D8) and the textual form (R68). -/

namespace Sys2Proof

/-! ## Fields (R61) -/

/-- `TW[39:32]`, the RSSI operand's bits. -/
def rssiField (w : TWord) : Byte := w.extractLsb' 32 8

/-- `TW[31:0]`, the timestamp operand, "no scaling, no extension" (R62). -/
def tsField (w : TWord) : Tick := w.extractLsb' 0 32

/-- The value of an RSSI operand (R62): "its value is `TW[39:32]` if `TW[39] = 0`, else `TW[39:32] - 256`". -/
def rssiValue (r : Byte) : Int := if r.getLsbD 7 then (r.toNat : Int) - 256 else (r.toNat : Int)

/-! ## The word -/

/-- R63, R64: `TW[41]` is the port and `TW[40]` selects within it; all four values are assigned, so decoding is total. -/
def decode (w : TWord) : Instr :=
  if w.getLsbD 41 then
    if w.getLsbD 40 then .rdest else .dtick
  else
    if w.getLsbD 40 then .bcn (tsField w) (rssiField w) else .bcnx (tsField w)

/-- The word with the given fields (R61): `op` in 41:40, `rssi` in 39:32, `ts` in 31:0. -/
def packWord (op : BitVec 2) (rssi : Byte) (ts : Tick) : TWord :=
  op.setWidth 42 <<< 40 ||| rssi.setWidth 42 <<< 32 ||| ts.setWidth 42

/-- The canonical word of an operation (R65, R69): unread bits zero, but `BCNX` carries `ts`. -/
def encode (i : Instr) : TWord :=
  match i with
  | .bcnx ts => packWord 0 0 ts
  | .bcn ts rssi => packWord 1 rssi ts
  | .dtick => packWord 2 0 0
  | .rdest => packWord 3 0 0

/-- One row of the opcode map (R64): a word `w` selects the row for which `w AND mask = pattern`. -/
structure OpRow where
  mnemonic : String
  pattern : TWord
  mask : TWord
  deriving DecidableEq, Repr

/-- The opcode map of R64, row by row. -/
def opRows : List OpRow :=
  [⟨"BCNX", 0x00000000000#42, 0x30000000000#42⟩,
   ⟨"BCN", 0x10000000000#42, 0x30000000000#42⟩,
   ⟨"DTICK", 0x20000000000#42, 0x30000000000#42⟩,
   ⟨"RDEST", 0x30000000000#42, 0x30000000000#42⟩]

/-- R64: the word selects the row. -/
def OpRow.selects (r : OpRow) (w : TWord) : Bool := w &&& r.mask == r.pattern

/-- The mnemonic of an operation, as the table spells it. -/
def Instr.mnemonic (i : Instr) : String :=
  match i with
  | .bcnx _ => "BCNX"
  | .bcn _ _ => "BCN"
  | .dtick => "DTICK"
  | .rdest => "RDEST"

/-! ## The byte container (D8) -/

/-- Why bytes hold no transaction word. -/
inductive DecodeError where
  /-- Fewer than six bytes are left. -/
  | truncated
  /-- A bit of 47:42 is set, where D8 says zero (log entry 14). -/
  | paddingNotZero
  deriving DecidableEq, Repr

/-- D8: "a transaction word is stored as 6 bytes, little-endian, bits 47:42 zero". -/
def wordBytes (w : TWord) : List Byte :=
  let v : BitVec 48 := w.setWidth 48
  [v.extractLsb' 0 8, v.extractLsb' 8 8, v.extractLsb' 16 8, v.extractLsb' 24 8, v.extractLsb' 32 8, v.extractLsb' 40 8]

/-- The container of an operation's canonical word. -/
def encodeBytes (i : Instr) : List Byte := wordBytes (encode i)

/-- The word at the head of the bytes, with the bytes after it. -/
def takeWord : List Byte → Except DecodeError (TWord × List Byte)
  | b0 :: b1 :: b2 :: b3 :: b4 :: b5 :: rest =>
    let v : BitVec 48 := b5 ++ b4 ++ b3 ++ b2 ++ b1 ++ b0
    if v.extractLsb' 42 6 = 0#6 then .ok (v.setWidth 42, rest) else .error .paddingNotZero
  | _ => .error .truncated

/-- The operation at the head of the bytes, total on any bytes. -/
def decodeBytes (bs : List Byte) : Except DecodeError (Instr × List Byte) :=
  match takeWord bs with
  | .ok (w, rest) => .ok (decode w, rest)
  | .error e => .error e

/-- The container of the number `w` cut to `nbits` bits: byte `k` holds bits `8k+7 .. 8k`. -/
def tableBytes (nbits w : Nat) : List Byte :=
  let v := w % 2 ^ nbits
  [BitVec.ofNat 8 v, BitVec.ofNat 8 (v / 2 ^ 8), BitVec.ofNat 8 (v / 2 ^ 16), BitVec.ofNat 8 (v / 2 ^ 24),
   BitVec.ofNat 8 (v / 2 ^ 32), BitVec.ofNat 8 (v / 2 ^ 40)]

/-- The operation this decoder reads from a word whose bits are `w`, numbered as spec/opcode_table.json numbers them. -/
def decodeTableWord (nbits w : Nat) : Option Instr :=
  match decodeBytes (tableBytes nbits w) with
  | .ok (i, _) => some i
  | .error _ => none

/-! ## The textual form (R68) -/

/-- The operation of a line; none for `RST` ("it is not a transaction and has no encoding") and for a number out of range. -/
def Line.assemble (l : Line) : Option Instr :=
  match l with
  | .bcnx ts => if tsInRange ts then some (.bcnx (BitVec.ofNat 32 ts)) else none
  | .bcn ts rssi =>
    if tsInRange ts && rssiInRange rssi then some (.bcn (BitVec.ofNat 32 ts) (BitVec.ofInt 8 rssi)) else none
  | .dtick => some .dtick
  | .rdest => some .rdest
  | .rst => none

/-- Space or tab (DESIGN CHOICE, log entry 15). -/
def isBlank (c : Char) : Bool := c == ' ' || c == '\t'

/-- The characters without the blanks at both ends. -/
def trimBlanks (cs : List Char) : List Char := ((cs.dropWhile isBlank).reverse.dropWhile isBlank).reverse

/-- The value of a decimal digit. -/
def decDigit (c : Char) : Option Nat :=
  if '0'.toNat ≤ c.toNat ∧ c.toNat ≤ '9'.toNat then some (c.toNat - '0'.toNat) else none

/-- The value of a hexadecimal digit, capital or small. -/
def hexDigit (c : Char) : Option Nat :=
  if 'a'.toNat ≤ c.toNat ∧ c.toNat ≤ 'f'.toNat then some (c.toNat - 'a'.toNat + 10)
  else if 'A'.toNat ≤ c.toNat ∧ c.toNat ≤ 'F'.toNat then some (c.toNat - 'A'.toNat + 10)
  else decDigit c

/-- A number of one digit or more in the base. -/
def readDigits (base : Nat) (digit : Char → Option Nat) : List Char → Option Nat
  | [] => none
  | c :: cs => (c :: cs).foldl (fun acc d => acc.bind fun n => (digit d).map fun k => base * n + k) (some 0)

/-- R68: a timestamp is "decimal or 0x hex". -/
def readTs : List Char → Option Nat
  | '0' :: 'x' :: cs => readDigits 16 hexDigit cs
  | cs => readDigits 10 decDigit cs

/-- R68: an RSSI is "decimal", with a minus sign below zero. -/
def readRssi : List Char → Option Int
  | '-' :: cs => (readDigits 10 decDigit cs).map fun n => -(n : Int)
  | cs => (readDigits 10 decDigit cs).map fun n => (n : Int)

/-- R68: "`;` starts a comment"; one transaction a line. None where the text is no line of the form (an empty line too). -/
def parseLine (cs : List Char) : Option Line :=
  let body := trimBlanks (cs.takeWhile (· != ';'))
  let name := body.takeWhile (fun c => !isBlank c)
  let args := trimBlanks (body.dropWhile (fun c => !isBlank c))
  if name = ['B', 'C', 'N'] then
    match args.dropWhile (· != ',') with
    | ',' :: r =>
      match readTs (trimBlanks (args.takeWhile (· != ','))), readRssi (trimBlanks r) with
      | some ts, some rssi => some (.bcn ts rssi)
      | _, _ => none
    | _ => none
  else if name = ['B', 'C', 'N', 'X'] then (readTs args).map .bcnx
  else if name = ['D', 'T', 'I', 'C', 'K'] then (if args = [] then some .dtick else none)
  else if name = ['R', 'D', 'E', 'S', 'T'] then (if args = [] then some .rdest else none)
  else if name = ['R', 'S', 'T'] then (if args = [] then some .rst else none)
  else none

end Sys2Proof
end

