-- ==== Sys2Proof/Config.lean ====
section
/-! DEFINITION. The configuration of RSSIPIPE: the compile-time constants of 00_scope.md R6, which no operation changes
(10_state.md R25), the parameters of R7, and the free values that the spec leaves open. -/

namespace Sys2Proof

/-- `CAL_BIAS`, the calibration bias (R6). -/
def Config.calBias : Byte := 42

/-- `MAX_BURST_DELAY` in ticks (R6). -/
def Config.maxBurstDelay : Tick := 250000

/-- `LOG_CAP`, the sample-log capacity (R6). -/
def Config.logCap : Nat := 32

/-- `MINW_CAP`, the minima-window capacity between operations (R6). -/
def Config.minwCap : Nat := 4

/-- `MINW_PHYS`, the physical slots of `MINW` (R7, 92_eei_decisions.md D25). -/
def Config.minwPhys : Nat := 5

/-- `FRAME_CLAMP`, the largest frame index (R6). -/
def Config.frameClamp : Byte := 26

/-- `DEFAULT_MAG`, the magnitude of an empty sample and the seed of the minimum (R6, 41_window_minimum.md R100). -/
def Config.defaultMag : Byte := 255

/-- `SHOWN_RESET` at `State.reset`. DESIGN CHOICE (log entry 6): the spec leaves the parameter OPEN and recommends NONE
(R7, 92_eei_decisions.md D12). The parameter itself is the field `State.shownReset`. -/
def Config.shownReset : Option Index := none

/-- `TICK_HZ` (R7, D24): OPEN, and no rule reads it. UNVERIFIED value, so it has no body (log entry 16). -/
opaque Config.tickHz : Nat

/-- FREE VALUE (log entry 9): whether the diagnostic transport delivers the `n`-th DIAG event since reset
(93_implementation_defined.md U2: "each `DIAG(v)` is delivered or dropped; claims hold under both"). -/
opaque Config.diagDelivered : Nat → Bool

end Sys2Proof
end

