-- ==== Sys2Proof/Machine/State.lean ====
section
/-! DEFINITION. The state of the machine: the RSSIPIPE state, which is the four items of 10_state.md and nothing else, and
beside it the ports, which hold what the outside world sends and receives (30_encoding.md R60). -/

namespace Sys2Proof.Machine
open Sys2Proof

/-- A Sample (10_state.md R20): the tick count and the magnitude of one advertisement. -/
structure Sample where
  ts : Tick
  mag : Byte
  deriving DecidableEq, Repr

/-- The whole state of RSSIPIPE (10_state.md): `LOG`, `MINW`, `EST`, `SHOWN`. Position 0 of a FIFO is its oldest entry. -/
structure Pipe where
  /-- `LOG`, the Sample Log (R21). -/
  log : List Sample
  /-- `MINW`, the Minima Window (R22). -/
  minw : List Byte
  /-- `EST`, the Published Estimate (R23). -/
  est : Byte
  /-- `SHOWN`, the previously shown index, or NONE (R24). -/
  shown : Option Index
  deriving DecidableEq, Repr

/-- The agents (00_scope.md R8). -/
inductive Agent where
  /-- `COLLECTOR`, the radio-receive context. -/
  | collector
  /-- `DISPLAY`, the Display Updater, of higher priority (60_exceptions.md R143). -/
  | display
  /-- `RESET`, which issues the reset event and no transaction, and may preempt everything (Machine/Agents.lean). -/
  | reset
  deriving DecidableEq, Repr

/-- The request ports (30_encoding.md R60). -/
inductive Port where
  | collector
  | reader
  deriving DecidableEq, Repr

/-- A transaction word delivered to a port, with the conditions it was issued under that 60_exceptions.md R141 speaks of. -/
structure Request where
  /-- The context that issues it. -/
  agent : Agent
  /-- The port it arrives on. -/
  port : Port
  /-- The transaction word (30_encoding.md R61). -/
  word : TWord
  /-- The issuer holds the display lock (60_exceptions.md R148 (b)). -/
  displayLock : Bool
  /-- A `BCN` or `BCNX` issued earlier is still in progress (60_exceptions.md R141 (a)). -/
  collectorBusy : Bool
  deriving DecidableEq, Repr

/-- What the outside world can do to the block: one transaction, or the reset event (70_reset_and_hazards.md R160). -/
inductive Input where
  | transaction (r : Request)
  | reset
  deriving DecidableEq, Repr

/-- The events of the display output (30_encoding.md R60): `SHOW(i)` and `MUX`. -/
inductive DisplayEvent where
  | load (i : Index)
  | mux
  deriving DecidableEq, Repr

/-- One `DIAG(v)` event (43_publish_display.md R121), and whether the best-effort transport delivers it. -/
structure DiagEvent where
  value : Byte
  delivered : Bool
  deriving DecidableEq, Repr

/-- The response words of the reader port (30_encoding.md R67). -/
inductive Response where
  /-- `RR[7:0]`. -/
  | rdest (rr : BitVec 8)
  /-- `mux[6]`, `show[5]`, `index[4:0]`. -/
  | dtick (rr : BitVec 7)
  deriving DecidableEq, Repr

/-- The MODEL's own fields (log entries 1, 8, 9): none is RSSIPIPE state (10_state.md R32). The DIAG events and the display
events stand in two lists, because their order "is not constrained" (20_memory.md R51). -/
structure Ports where
  /-- The inputs still to come, in serial order. -/
  inbox : List Input
  /-- The reset event has completed (60_exceptions.md R141 (d)). -/
  resetDone : Bool
  /-- The display output since reset, oldest first. -/
  display : List DisplayEvent
  /-- The diagnostic output since reset, oldest first. -/
  diag : List DiagEvent
  /-- The response words since reset, oldest first. -/
  responses : List Response
  deriving DecidableEq, Repr

/-- The machine: RSSIPIPE, its ports, and the parameter `SHOWN_RESET` (00_scope.md R7), which no step changes. -/
structure State where
  pipe : Pipe
  ports : Ports
  shownReset : Option Index
  deriving DecidableEq, Repr

/-- Faults: none. 60_exceptions.md R140: "A model gives every operation exactly one outcome, the next state; it needs no
fault outcome for RSSIPIPE." (Log entry 20; nobody raises one; safe.) -/
inductive Fault where
  deriving DecidableEq, Repr

/-- Refusals. Beside `notModelled` they are the protocol violations of 60_exceptions.md R141, which "are failures of the
issuer"; each is raised by `violation` (Machine/Protocol.lean) before an operation begins, and each is safe (92 D14). -/
inductive Refusal where
  /-- An operation without a meaning yet; no arm of `exec` raises it now. Safe. -/
  | notModelled (mnemonic : String)
  /-- R141 (d): an operation issued before the reset event has completed. Safe. -/
  | beforeReset
  /-- R141 (b), 30_encoding.md R66: a transaction word on the wrong port. Safe. -/
  | wrongPort
  /-- R141 (b): an operation issued by a context that may not issue it. Safe. -/
  | wrongContext
  /-- R141 (a): a `BCN` or `BCNX` issued while one is in progress. Safe. -/
  | reentrantCollector
  /-- R141 (c): a `DTICK` issued without the display lock. Safe. -/
  | displayUnlocked
  deriving DecidableEq, Repr

/-- The RSSIPIPE state after the reset event (10_state.md R31), for a value of the parameter `SHOWN_RESET`. -/
def Pipe.reset (shownReset : Option Index) : Pipe :=
  { log := [], minw := [], est := 0, shown := shownReset }

/-- The ports when the reset event has just completed, with the inputs still to come. -/
def Ports.reset (inbox : List Input) : Ports :=
  { inbox := inbox, resetDone := true, display := [], diag := [], responses := [] }

/-- The machine right after reset, for a value of `SHOWN_RESET` and the inputs still to come. -/
def State.resetWith (shownReset : Option Index) (inbox : List Input) : State :=
  { pipe := Pipe.reset shownReset, ports := Ports.reset inbox, shownReset := shownReset }

/-- The machine right after reset, with nothing sent to it yet. `SHOWN` is NONE: DESIGN CHOICE, log entry 6. -/
def State.reset : State := State.resetWith Config.shownReset []

end Sys2Proof.Machine
end

