-- ==== Sys2Proof/Machine/Operands.lean ====
section
/-! DEFINITION. The arithmetic primitives of 00_scope.md R10, each total. -/

namespace Sys2Proof.Machine
open Sys2Proof

/-- `abs8` (R10): the absolute value "computed in the integers; range 0..128; `abs8(-128) = 128`" (92 D7, log entry 10). -/
def abs8 (r : Byte) : Byte := BitVec.ofNat 8 (rssiValue r).natAbs

/-- `sat_sub8` (R10): `a - b` if `a >= b`, else 0. -/
def satSub8 (a b : Byte) : Byte := if b ≤ a then a - b else 0

/-- `wsub32` (R10): `(a - b) mod 2^32`. -/
def wsub32 (a b : Tick) : Tick := a - b

/-- `min8` (R10): the smaller of the two unsigned values. -/
def min8 (a b : Byte) : Byte := if a ≤ b then a else b

end Sys2Proof.Machine
end

