-- ==== Sys2Proof/Machine/Flags.lean ====
section
/-! DEFINITION. The predicates of 10_state.md R27. RSSIPIPE has no flags: each is computed inside one operation and
discarded at its end. -/

namespace Sys2Proof.Machine
open Sys2Proof

/-- `full`: `LogLen = 32` (after the push). -/
def isFull (log : List Sample) : Bool := log.length == Config.logCap

/-- `late`: `elapsed > 250000`, strict and unsigned. -/
def isLate (elapsed : Tick) : Bool := decide (Config.maxBurstDelay < elapsed)

/-- `close`, the burst-close trigger (40_capture_fifo.md R85): `full or late`. -/
def burstTrigger (log : List Sample) (elapsed : Tick) : Bool := isFull log || isLate elapsed

/-- The age of an entry relative to the newest (00_scope.md, glossary): `wsub32(newest.ts, entry.ts)`. -/
def age (newest : Tick) (e : Sample) : Tick := wsub32 newest e.ts

/-- `valid`: the age is `< 250000`, strict and unsigned (41_window_minimum.md R100). -/
def isValid (newest : Tick) (e : Sample) : Bool := decide (age newest e < Config.maxBurstDelay)

/-- `over`: `MinwLen > 4` (after the push, 42_moving_average.md R112). -/
def isOver (minw : List Byte) : Bool := decide (Config.minwCap < minw.length)

/-- `changed`: the index differs from `SHOWN`; "NONE differs from every index" (43_publish_display.md R123). -/
def isChanged (shown : Option Index) (i : Index) : Bool := decide (shown ≠ some i)

end Sys2Proof.Machine
end

