-- ==== Sys2Proof/Machine/Ops.lean ====
section
/-! DEFINITION. The named operations over the state (00_scope.md R11): the one place where an item is written, an event
emitted, a response given or the reset event taken. RSSIPIPE takes no exception and returns from none
(60_exceptions.md R140, R145), so there is no such operation. -/

namespace Sys2Proof.Machine
open Sys2Proof

/-! ## FIFO files (R11) -/

/-- `LogPushBack`, `MinwPushBack`: append at the newest end. -/
def pushBack {α : Type} (xs : List α) (x : α) : List α := xs ++ [x]

/-- `LogPopFront`, `MinwPopFront`: remove the entry at position 0. No operation pops an empty file (R140; log entry 12). -/
def popFront {α : Type} (xs : List α) : List α := xs.tail

/-- `repeat n times: PopFront()` (41_window_minimum.md R101). -/
def popFrontTimes {α : Type} : Nat → List α → List α
  | 0, xs => xs
  | n + 1, xs => popFrontTimes n (popFront xs)

/-! ## Writes of state -/

/-- Write `LOG`. -/
def State.setLog (s : State) (log : List Sample) : State := { s with pipe := { s.pipe with log := log } }

/-- Write `MINW`. -/
def State.setMinw (s : State) (minw : List Byte) : State := { s with pipe := { s.pipe with minw := minw } }

/-- `AtomStore(EST, v)`: the one single-copy-atomic 8-bit write (20_memory.md R44, 43_publish_display.md R120). -/
def State.atomStore (s : State) (v : Byte) : State := { s with pipe := { s.pipe with est := v } }

/-- `AtomLoad(EST)`: it changes nothing (20_memory.md R46). -/
def State.atomLoad (s : State) : Byte := s.pipe.est

/-- Write `SHOWN`. -/
def State.setShown (s : State) (shown : Option Index) : State := { s with pipe := { s.pipe with shown := shown } }

/-- The valid bit of `SHOWN`, bit 5 of the layout of 10_state.md R25. -/
def shownValid (shown : Option Index) : Bool := shown.isSome

/-- The index bits of `SHOWN`, bits 4:0 of that layout, which have a value "when valid". -/
def shownIndexBits (shown : Option Index) : Option (BitVec 5) := shown.map fun i => BitVec.ofNat 5 i.val

/-! ## Outputs -/

/-- `emit SHOW(i)` or `emit MUX` on the display output. -/
def State.emitDisplay (s : State) (e : DisplayEvent) : State :=
  { s with ports := { s.ports with display := s.ports.display ++ [e] } }

/-- `emit DIAG(v)` (43_publish_display.md R121); its delivery is a free value (log entry 9). -/
def State.emitDiag (s : State) (v : Byte) : State :=
  { s with ports := { s.ports with diag := s.ports.diag ++ [⟨v, Config.diagDelivered s.ports.diag.length⟩] } }

/-- `return v` on the reader port (30_encoding.md R67). -/
def State.respond (s : State) (r : Response) : State :=
  { s with ports := { s.ports with responses := s.ports.responses ++ [r] } }

/-! ## Inputs -/

/-- The inputs still to come. -/
def State.setInbox (s : State) (inbox : List Input) : State := { s with ports := { s.ports with inbox := inbox } }

/-- The reset event (70_reset_and_hazards.md R160): every item takes its value of 10_state.md R31. The output lists hold the
outputs since reset, so they start again (log entry 9). -/
def resetEvent (s : State) : State := State.resetWith s.shownReset s.ports.inbox

end Sys2Proof.Machine
end

