-- ==== Sys2Proof/Machine/Average.lean ====
section
/-! DEFINITION. The moving-average filter (42_moving_average.md): MinwPush, Mean, MinwTrim, in this order. -/

namespace Sys2Proof.Machine
open Sys2Proof

/-- `MinwPush(m)` (R110): "no eviction here". -/
def minwPush (minw : List Byte) (m : Byte) : List Byte := pushBack minw m

/-- The exact sum of the window (R111; `SUM_W`, 92 D11, log entry 11). -/
def minwSum (minw : List Byte) : Nat := (minw.map BitVec.toNat).sum

/-- `Mean()` (R111): the floor of the exact quotient over all entries, the length being 1..5 here (log entry 12). -/
def mean (minw : List Byte) : Byte := BitVec.ofNat 8 (minwSum minw / minw.length)

/-- `MinwTrim()` (R112): one pop when the capacity 4 is exceeded. -/
def minwTrim (minw : List Byte) : List Byte := if isOver minw then popFront minw else minw

end Sys2Proof.Machine
end

