-- ==== Sys2Proof/Machine/Capture.lean ====
section
/-! DEFINITION. Sample capture and the sample FIFO (40_capture_fifo.md): Magnitude, LogPush, Elapsed. -/

namespace Sys2Proof.Machine
open Sys2Proof

/-- `Magnitude(rssi) = sat_sub8(abs8(rssi), CAL_BIAS)` (R82). -/
def magnitude (rssi : Byte) : Byte := satSub8 (abs8 rssi) Config.calBias

/-- `LogPush(s)` (R83): when the log is full the oldest entry is evicted, then the Sample is appended. -/
def logPush (log : List Sample) (x : Sample) : List Sample :=
  pushBack (if isFull log then popFront log else log) x

/-- `Elapsed(ts) = wsub32(ts, LOG[0].ts)` (R84), evaluated after the push, so on a log that holds an entry (log entry 12). -/
def elapsed (log : List Sample) (ts : Tick) : Tick :=
  match log with
  | oldest :: _ => wsub32 ts oldest.ts
  | [] => wsub32 ts ts

end Sys2Proof.Machine
end

