-- ==== Sys2Proof/Machine/Publish.lean ====
section
/-! DEFINITION. The atomic publisher and the display index (43_publish_display.md): Publish, Clamp, the response of DTICK. -/

namespace Sys2Proof.Machine
open Sys2Proof

/-- `Publish(est)` (R120): one atomic store, the only write of `EST` besides reset. -/
def publish (s : State) (est : Byte) : State := s.atomStore est

/-- `Clamp(e) = min8(FRAME_CLAMP, e)` (R124), a frame index. -/
def clamp (e : Byte) : Index := Fin.ofNat 27 (min8 Config.frameClamp e).toNat

/-- The response word of `DTICK` (30_encoding.md R67): `1 ++ show ++ frame_index[4:0]`. -/
def dtickResponse (loaded : Bool) (i : Index) : BitVec 7 := 1#1 ++ BitVec.ofBool loaded ++ BitVec.ofNat 5 i.val

end Sys2Proof.Machine
end

