-- ==== Sys2Proof/Machine/Window.lean ====
section
/-! DEFINITION. The sliding-window minimum extractor (41_window_minimum.md): MinScan, LogDrain. -/

namespace Sys2Proof.Machine
open Sys2Proof

/-- The loop of `MinScan` (R100) over the entries from the newest to the oldest, with `m` and `n` so far: the first entry
that is not valid stops it. -/
def scanFrom (newest : Tick) : List Sample → Byte → Nat → Byte × Nat
  | [], m, n => (m, n)
  | e :: es, m, n => if isValid newest e then scanFrom newest es (min8 m e.mag) (n + 1) else (m, n)

/-- `MinScan() -> (m, n)` (R100). A burst closes on a log that holds an entry; on none there is nothing to scan
(log entry 12). -/
def minScan (log : List Sample) : Byte × Nat :=
  match log.reverse with
  | newest :: older => scanFrom newest.ts (newest :: older) Config.defaultMag 0
  | [] => (Config.defaultMag, 0)

/-- `LogDrain(n)` (R101): the count found valid at the newest end leaves at the OLDEST end (90_conflicts.md C1). -/
def logDrain (n : Nat) (log : List Sample) : List Sample := popFrontTimes n log

end Sys2Proof.Machine
end

