-- ==== Sys2Proof/Machine/Collector.lean ====
section
/-! DEFINITION. The collector-port operations: BCNX (40_capture_fifo.md R80) and BCN (R81). -/

namespace Sys2Proof.Machine
open Sys2Proof

/-- `BurstClose()` (R81): scan, drain, push, mean, trim, publish, DIAG, in this order. -/
def burstClose (s : State) : State :=
  let scan := minScan s.pipe.log
  let s := s.setLog (logDrain scan.2 s.pipe.log)
  let s := s.setMinw (minwPush s.pipe.minw scan.1)
  let est := mean s.pipe.minw
  let s := s.setMinw (minwTrim s.pipe.minw)
  (publish s est).emitDiag est

/-- The effect of `BCN ts, rssi` (R81): push the Sample; close a burst when the trigger of R85 is true; else no more (R86). -/
def beacon (ts : Tick) (rssi : Byte) (s : State) : State :=
  let s := s.setLog (logPush s.pipe.log ⟨ts, magnitude rssi⟩)
  if burstTrigger s.pipe.log (elapsed s.pipe.log ts) then burstClose s else s

/-- `BCNX ts` (R80): "skip — no entry recorded, no further effect". -/
def execBcnx (_ts : Tick) (s : State) : Host.Outcome State Fault Refusal := .next s

/-- `BCN ts, rssi` (R81). -/
def execBcn (ts : Tick) (rssi : Byte) (s : State) : Host.Outcome State Fault Refusal := .next (beacon ts rssi s)

end Sys2Proof.Machine
end

