-- ==== Sys2Proof/Machine/Reader.lean ====
section
/-! DEFINITION. The reader-port operations: DTICK (43_publish_display.md R123) and RDEST (R122). -/

namespace Sys2Proof.Machine
open Sys2Proof

/-- Step 3 of `DTICK` (R123): when the index differs from `SHOWN`, command the load and remember it. -/
def showIndex (i : Index) (s : State) : State :=
  if isChanged s.pipe.shown i then (s.emitDisplay (.load i)).setShown (some i) else s

/-- The effect of `DTICK` (R123): load, clamp, show if changed, `MUX` every time, respond. -/
def displayTick (s : State) : State :=
  let i := clamp s.atomLoad
  let loaded := isChanged s.pipe.shown i
  ((showIndex i s).emitDisplay .mux).respond (.dtick (dtickResponse loaded i))

/-- The effect of `RDEST` (R122): `RR[7:0] = EST` and no state written. -/
def readEstimate (s : State) : State := s.respond (.rdest s.atomLoad)

/-- `DTICK` (R123). -/
def execDtick (s : State) : Host.Outcome State Fault Refusal := .next (displayTick s)

/-- `RDEST` (R122). -/
def execRdest (s : State) : Host.Outcome State Fault Refusal := .next (readEstimate s)

end Sys2Proof.Machine
end

