-- ==== Sys2Proof/Machine/Dispatch.lean ====
section
/-! DEFINITION. The dispatch of an operation to its meaning, one arm per constructor. -/

namespace Sys2Proof.Machine
open Sys2Proof

def exec (i : Instr) (s : State) : Host.Outcome State Fault Refusal :=
  match i with
  | .bcnx ts => Sys2Proof.Machine.execBcnx ts s
  | .bcn ts rssi => Sys2Proof.Machine.execBcn ts rssi s
  | .dtick => Sys2Proof.Machine.execDtick s
  | .rdest => Sys2Proof.Machine.execRdest s

end Sys2Proof.Machine
end

