-- ==== Sys2Proof/Machine/Protocol.lean ====
section
/-! DEFINITION. The protocol of the two request ports: who may issue what (10_state.md R33, 60_exceptions.md R147, R148), the
violations that the machine refuses (60_exceptions.md R141), and how a program of 30_encoding.md R68 becomes inputs. -/

namespace Sys2Proof.Machine
open Sys2Proof

/-- The port of an operation (30_encoding.md R64). -/
def portOf (i : Instr) : Port :=
  match i with
  | .bcnx _ => .collector
  | .bcn _ _ => .collector
  | .dtick => .reader
  | .rdest => .reader

/-- The agent of a port (30_encoding.md R60). -/
def agentOf (p : Port) : Agent :=
  match p with
  | .collector => .collector
  | .reader => .display

/-- The violation that a request commits, if any (R141; 92 D14). Which name an input that commits several is given is the
model's choice (log entry 5). `RDEST` "needs no lock" (43_publish_display.md R122). -/
def violation (r : Request) (s : State) : Option Refusal :=
  let i := decode r.word
  if !s.ports.resetDone then some .beforeReset
  else if r.port != portOf i then some .wrongPort
  else if r.agent != agentOf (portOf i) then some .wrongContext
  else if portOf i == .collector && r.collectorBusy then some .reentrantCollector
  else if i == .dtick && !r.displayLock then some .displayUnlocked
  else none

/-- A transaction word issued as 70_reset_and_hazards.md R163 asks: on its port, by that port's agent, with the display lock
held and no collector operation in progress. -/
def issueWord (w : TWord) : Input :=
  let p := portOf (decode w)
  .transaction { agent := agentOf p, port := p, word := w, displayLock := true, collectorBusy := false }

/-- The canonical word of an operation, so issued. -/
def issue (i : Instr) : Input := issueWord (encode i)

/-- The input of one line (R68): a transaction, or the reset event for the marker `RST`. -/
def lineInput (l : Line) : Option Input :=
  match l with
  | .rst => some .reset
  | .bcnx ts => (Line.assemble (.bcnx ts)).map issue
  | .bcn ts rssi => (Line.assemble (.bcn ts rssi)).map issue
  | .dtick => some (issue .dtick)
  | .rdest => some (issue .rdest)

end Sys2Proof.Machine
end

