-- ==== Sys2Proof/Machine/Step.lean ====
section
/-! DEFINITION. One step: the next input of the inbox. RSSIPIPE fetches nothing (10_state.md R26); it acts on the
transactions its ports accept (00_scope.md R3) and on the reset event, and does nothing by itself (R8). -/

namespace Sys2Proof.Machine
open Sys2Proof

/-- No input: nothing changes (R8, log entry 3). The reset event: 70_reset_and_hazards.md R160. A transaction: refused if it
breaks the protocol (60_exceptions.md R141), else the operation its word decodes to. -/
def step (s : State) : Host.Outcome State Fault Refusal :=
  match s.ports.inbox with
  | [] => .next s
  | .reset :: rest => .next (resetEvent (s.setInbox rest))
  | .transaction r :: rest =>
    match violation r s with
    | some why => .refused why
    | none => exec (decode r.word) (s.setInbox rest)

/-- The machine with that transaction as its next input, issued as the protocol asks, and reset completed (log entry 2).
A number that is no container of a word (92 D8) places nothing. -/
def State.withFetchWord (s : State) (nbits w : Nat) : State :=
  match takeWord (tableBytes nbits w) with
  | .ok (tw, _) => { s with ports := { s.ports with inbox := issueWord tw :: s.ports.inbox, resetDone := true } }
  | .error _ => s

end Sys2Proof.Machine
end

