-- ==== Sys2Proof/Machine/Preempt.lean ====
section
/-! DEFINITION. The sub-step machine of 20_memory.md R51: a `BCN` as the sequence of its sub-steps (40_capture_fifo.md R81,
MS §4.2 steps 2 to 6), between any two of which agent DISPLAY may run (60_exceptions.md R143). `step` takes a `BCN` whole
(92 D6); this machine is what the claim that nothing is lost speaks of. -/

namespace Sys2Proof.Machine
open Sys2Proof

/-- The sub-step that a `BCN` in progress takes next, with the transient values it needs (10_state.md R27, R28 (b)). -/
inductive Stage where
  /-- Step 2. -/
  | magnitude (ts : Tick) (rssi : Byte)
  /-- Step 3. -/
  | logPush (ts : Tick) (mag : Byte)
  /-- Step 4. -/
  | elapsed (ts : Tick)
  /-- Step 5, the trigger. -/
  | trigger (elapsed : Tick)
  /-- Step 5a. -/
  | minScan
  /-- Step 5b. -/
  | logDrain (m : Byte) (n : Nat)
  /-- Step 5c. -/
  | minwPush (m : Byte)
  /-- Step 5d. -/
  | mean
  /-- Step 5e. -/
  | minwTrim (est : Byte)
  /-- Step 5f. -/
  | publish (est : Byte)
  /-- Step 5g. -/
  | diag (est : Byte)
  /-- The operation has ended. -/
  | done
  deriving DecidableEq, Repr

/-- One sub-step; a `BCN` that has ended takes none. -/
def substep (g : Stage) (s : State) : Stage × State :=
  match g with
  | .magnitude ts rssi => (.logPush ts (Sys2Proof.Machine.magnitude rssi), s)
  | .logPush ts mag => (.elapsed ts, s.setLog (Sys2Proof.Machine.logPush s.pipe.log ⟨ts, mag⟩))
  | .elapsed ts => (.trigger (Sys2Proof.Machine.elapsed s.pipe.log ts), s)
  | .trigger e => (if burstTrigger s.pipe.log e then .minScan else .done, s)
  | .minScan => (.logDrain (Sys2Proof.Machine.minScan s.pipe.log).1 (Sys2Proof.Machine.minScan s.pipe.log).2, s)
  | .logDrain m n => (.minwPush m, s.setLog (Sys2Proof.Machine.logDrain n s.pipe.log))
  | .minwPush m => (.mean, s.setMinw (Sys2Proof.Machine.minwPush s.pipe.minw m))
  | .mean => (.minwTrim (Sys2Proof.Machine.mean s.pipe.minw), s)
  | .minwTrim est => (.publish est, s.setMinw (Sys2Proof.Machine.minwTrim s.pipe.minw))
  | .publish est => (.diag est, Sys2Proof.Machine.publish s est)
  | .diag est => (.done, s.emitDiag est)
  | .done => (.done, s)

/-- The operations of agent DISPLAY (00_scope.md R8). -/
inductive DisplayOp where
  | dtick
  | rdest
  deriving DecidableEq, Repr

/-- A DISPLAY operation runs whole: COLLECTOR never preempts it (60_exceptions.md R143). -/
def DisplayOp.run (d : DisplayOp) (s : State) : State :=
  match d with
  | .dtick => displayTick s
  | .rdest => readEstimate s

/-- DISPLAY operations one after the other. -/
def runDisplay (ds : List DisplayOp) (s : State) : State := ds.foldl (fun s d => d.run s) s

/-- A `BCN` in progress under a schedule: each entry is the DISPLAY operations that run before the next sub-step. -/
def runPreempted (sched : List (List DisplayOp)) (g : Stage) (s : State) : Stage × State :=
  sched.foldl (fun c ds => substep c.1 (runDisplay ds c.2)) (g, s)

end Sys2Proof.Machine
end

