-- ==== Sys2Proof/Machine/Agents.lean ====
section
/-! DEFINITION. The three agents at the grain of sub-steps (00_scope.md R8): COLLECTOR's operation in progress, DISPLAY's
operation in progress, and the reset event, which may come between any two sub-steps of either. `step` takes an operation
whole (92 D6) and a reset event between operations; this machine is what the claims that nothing is lost speak of
(log entries 4, 22). -/

namespace Sys2Proof.Machine
open Sys2Proof

/-- The column "may preempt" of R8's table: COLLECTOR nothing, DISPLAY COLLECTOR, RESET everything. -/
def mayPreempt (a b : Agent) : Bool :=
  match a, b with
  | .collector, _ => false
  | .display, .collector => true
  | .display, .display => false
  | .display, .reset => false
  | .reset, _ => true

/-- The sub-step that a DISPLAY operation in progress takes next (43_publish_display.md R122, R123). -/
inductive ReaderStage where
  /-- Step 1, the atomic load. -/
  | load (d : DisplayOp)
  /-- Step 2. -/
  | clamp (e : Byte)
  /-- Step 3. -/
  | showIndex (i : Index)
  /-- Step 4. -/
  | mux (loaded : Bool) (i : Index)
  /-- The response word. -/
  | respond (r : Response)
  /-- The operation has ended. -/
  | done
  deriving DecidableEq, Repr

/-- One sub-step of a DISPLAY operation. -/
def readerSubstep (h : ReaderStage) (s : State) : ReaderStage × State :=
  match h with
  | .load .dtick => (.clamp s.atomLoad, s)
  | .load .rdest => (.respond (.rdest s.atomLoad), s)
  | .clamp e => (.showIndex (Sys2Proof.Machine.clamp e), s)
  | .showIndex i => (.mux (isChanged s.pipe.shown i) i, Sys2Proof.Machine.showIndex i s)
  | .mux loaded i => (.respond (.dtick (dtickResponse loaded i)), s.emitDisplay .mux)
  | .respond r => (.done, s.respond r)
  | .done => (.done, s)

/-- The machine with at most one operation of each agent in progress. -/
structure Running where
  collector : Stage
  reader : ReaderStage
  state : State
  deriving DecidableEq, Repr

/-- No operation in progress. -/
def Running.idle (s : State) : Running := { collector := .done, reader := .done, state := s }

/-- What an agent does next. -/
inductive Move where
  /-- COLLECTOR issues a `BCN`. -/
  | bcn (ts : Tick) (rssi : Byte)
  /-- COLLECTOR issues a `BCNX`, which ends at once (40_capture_fifo.md R80). -/
  | bcnx (ts : Tick)
  /-- The `BCN` in progress takes a sub-step. -/
  | collector
  /-- DISPLAY issues an operation. -/
  | issue (d : DisplayOp)
  /-- The DISPLAY operation in progress takes a sub-step. -/
  | reader
  /-- RESET issues the reset event. -/
  | reset
  deriving DecidableEq, Repr

/-- The agent whose move it is. -/
def Move.agent (m : Move) : Agent :=
  match m with
  | .bcn _ _ => .collector
  | .bcnx _ => .collector
  | .collector => .collector
  | .issue _ => .display
  | .reader => .display
  | .reset => .reset

/-- The agent has an operation in progress. -/
def Running.busy (c : Running) (a : Agent) : Bool :=
  match a with
  | .collector => decide (c.collector ≠ .done)
  | .display => decide (c.reader ≠ .done)
  | .reset => false

/-- The agent may act now: every other agent with an operation in progress is one that it may preempt (R8). -/
def Running.admits (c : Running) (a : Agent) : Bool :=
  [Agent.collector, Agent.display].all fun b => b == a || !c.busy b || mayPreempt a b

/-- One move, where the machine has it: an agent waits for one that it may not preempt (60_exceptions.md R143), and does not
issue an operation while one of its own is in progress (R141 (a); DISPLAY may preempt COLLECTOR only, R8). The reset event ends every operation in progress: "no
operation is in progress during or across it" (70_reset_and_hazards.md R160). -/
def move (c : Running) (m : Move) : Option Running :=
  if c.admits m.agent then
    match m with
    | .bcn ts rssi => if c.busy .collector then none else some { c with collector := .magnitude ts rssi }
    | .bcnx _ => if c.busy .collector then none else some c
    | .collector =>
      if c.busy .collector then
        some { c with collector := (substep c.collector c.state).1, state := (substep c.collector c.state).2 }
      else none
    | .issue d => if c.busy .display then none else some { c with reader := .load d }
    | .reader =>
      if c.busy .display then
        some { c with reader := (readerSubstep c.reader c.state).1, state := (readerSubstep c.reader c.state).2 }
      else none
    | .reset => some (Running.idle (resetEvent c.state))
  else none

/-- Moves one after the other. -/
def runMoves : List Move → Running → Option Running
  | [], c => some c
  | m :: ms, c => (move c m).bind (runMoves ms)

/-- The operation that a move issues, if it issues one. -/
def Move.operation (m : Move) : Option Instr :=
  match m with
  | .bcn ts rssi => some (.bcn ts rssi)
  | .bcnx ts => some (.bcnx ts)
  | .collector => none
  | .issue .dtick => some .dtick
  | .issue .rdest => some .rdest
  | .reader => none
  | .reset => none

end Sys2Proof.Machine
end

