-- ==== Sys2Proof/Safety.lean ====
section
/-! DEFINITION. What counts as a safe run, in the terms the statements use: the invariants of 10_state.md R29 and R30, the
store order of 20_memory.md R47, the time order that 41_window_minimum.md R103 asks for, and the protocol of
60_exceptions.md R141. -/

namespace Sys2Proof.Safety
open Sys2Proof Sys2Proof.Machine

/-- R29 between operations: "Sample Log length ≤ 32 at all times; Minima Window length ≤ 4". The bounds on EST and on the
frame index are in the types. -/
abbrev StorageBounds (s : State) : Prop :=
  s.pipe.log.length ≤ Config.logCap ∧ s.pipe.minw.length ≤ Config.minwCap

/-- R29 between sub-steps: the window may hold five entries from the push (R110) to the trim (R112) only. -/
abbrev StageBounds (g : Stage) (s : State) : Prop :=
  s.pipe.log.length ≤ Config.logCap ∧
  match g with
  | .mean => s.pipe.minw.length ≤ Config.minwPhys
  | .minwTrim _ => s.pipe.minw.length ≤ Config.minwPhys
  | .magnitude _ _ | .logPush _ _ | .elapsed _ | .trigger _ | .minScan | .logDrain _ _ | .minwPush _ | .publish _ | .diag _
  | .done => s.pipe.minw.length ≤ Config.minwCap

/-- The values published since reset, oldest first (one per burst close, R47 (a)). -/
def published (s : State) : List Byte := s.ports.diag.map DiagEvent.value

/-- The latest element of the store order of EST, whose "first element" is the reset value 0 (R47 (a)). -/
def latestStore (s : State) : Byte := (published s).getLastD 0

/-- R30 (a) to (e): what the rules imply between operations. -/
abbrev ReachInv (s : State) : Prop :=
  s.pipe.log.length ≤ 31 ∧
  s.pipe.minw.length = min 4 (published s).length ∧
  (∀ e ∈ s.pipe.log, e.mag.toNat ≤ 86) ∧
  (∀ v ∈ s.pipe.minw, v.toNat ≤ 86) ∧
  s.pipe.est.toNat ≤ 86 ∧
  s.pipe.est = latestStore s

/-- The precondition of R103: the timestamps are the ticks `τ` of a clock, cut to 32 bits; the ticks do not decrease from
position 0 to the newest, and the whole log spans less than 2^32 of them. -/
abbrev TimeOrdered (log : List Sample) (τ : List Nat) : Prop :=
  log.map (fun e => e.ts.toNat) = τ.map (fun t => t % 2 ^ 32) ∧
  τ.Pairwise (fun a b => a ≤ b) ∧
  ∀ a ∈ τ, ∀ b ∈ τ, b < a + 2 ^ 32

/-- The window that the moving-average filter keeps after the minima `ms`, from an empty one (R110, R112). -/
def windowAfter (ms : List Byte) : List Byte := ms.foldl (fun w m => minwTrim (minwPush w m)) []

/-- A request that breaks no duty of R141 in the state `s`. -/
abbrev Conforms (r : Request) (s : State) : Prop :=
  s.ports.resetDone = true ∧
  r.port = portOf (decode r.word) ∧
  r.agent = agentOf (portOf (decode r.word)) ∧
  (portOf (decode r.word) = .collector → r.collectorBusy = false) ∧
  (decode r.word = .dtick → r.displayLock = true)

/-- Operations one after the other, each whole, up to the first that does not answer a next state. -/
def execAll : List Instr → State → Host.Outcome State Fault Refusal
  | [], s => .next s
  | i :: is, s =>
    match exec i s with
    | .next t => execAll is t
    | .fault f => .fault f
    | .refused r => .refused r

/-- A decimal numeral, its digits from the left, as text of 30_encoding.md R68. -/
def decText (ds : List (Fin 10)) : List Char := ds.map fun d => Char.ofNat ('0'.toNat + d.val)

/-- The number that decimal digits write. -/
def decValue (ds : List (Fin 10)) : Nat := ds.foldl (fun n d => 10 * n + d.val) 0

/-- A hexadecimal numeral in capital or in small letters, without its `0x`. -/
def hexText (capital : Bool) (ds : List (Fin 16)) : List Char :=
  ds.map fun d =>
    if d.val < 10 then Char.ofNat ('0'.toNat + d.val)
    else Char.ofNat ((if capital then 'A' else 'a').toNat + d.val - 10)

/-- The number that hexadecimal digits write. -/
def hexValue (ds : List (Fin 16)) : Nat := ds.foldl (fun n d => 16 * n + d.val) 0

end Sys2Proof.Safety
end

