-- ==== Sys2Proof/Certificates/Slice0/Obligations.lean ====
section
/-! DEFINITION. The statements for the provers. Each docstring names the rule of spec/ it formalises, and says where a clause
rests on a decision or a derivation that the spec marks as its own, or on a log entry of this model. -/

open Sys2Proof Sys2Proof.Machine Sys2Proof.Safety

/-! ## Encoding (30_encoding.md) -/

/-- R61 to R64, R69: no bit of an encoding is dropped, as a word and in the byte container of 92 D8 (the encodings are the
spec's own decisions D3, D4). -/
def Obligations.DecodeOfEncodeIsTheOperation : Prop :=
  ∀ (i : Instr) (rest : List Byte),
    decode (encode i) = i ∧ decodeBytes (encodeBytes i ++ rest) = .ok (i, rest)

/-- R63, R64: the opcode map. Exactly one row selects a word, `TW[41]` is the port, and each value of `TW[41:40]` is its
operation with the operands that the row reads. -/
def Obligations.EveryWordSelectsExactlyOneRow : Prop :=
  opRows.map (fun r => (r.mnemonic, r.pattern.toNat, r.mask.toNat)) =
    [("BCNX", 0x00000000000, 0x30000000000), ("BCN", 0x10000000000, 0x30000000000),
     ("DTICK", 0x20000000000, 0x30000000000), ("RDEST", 0x30000000000, 0x30000000000)] ∧
  ∀ w : TWord,
    (∃ r ∈ opRows, r.selects w = true ∧ (∀ r' ∈ opRows, r'.selects w = true → r' = r) ∧ (decode w).mnemonic = r.mnemonic) ∧
    (portOf (decode w) = if w.getLsbD 41 then .reader else .collector) ∧
    (w.extractLsb' 40 2 = 0 → ∃ ts, decode w = .bcnx ts) ∧
    (w.extractLsb' 40 2 = 1 → decode w = .bcn (w.extractLsb' 0 32) (w.extractLsb' 32 8)) ∧
    (w.extractLsb' 40 2 = 2 → decode w = .dtick) ∧
    (w.extractLsb' 40 2 = 3 → decode w = .rdest)

/-- R65: words that differ only in bits their operation does not read are one operation with one effect, and encoding what
was decoded gives the canonical word: ignored bits zero, but BCNX keeps `ts` in `TW[31:0]`. -/
def Obligations.IgnoredBitsHaveNoEffect : Prop :=
  (∀ w w' : TWord, w.extractLsb' 40 2 = w'.extractLsb' 40 2 → (w.extractLsb' 40 2 = 1 → w = w') →
    (decode w).mnemonic = (decode w').mnemonic ∧ ∀ s : State, exec (decode w) s = exec (decode w') s) ∧
  (∀ w : TWord, (encode (decode w)).toNat =
    if w.extractLsb' 40 2 = 0 then w.toNat % 2 ^ 32
    else if w.extractLsb' 40 2 = 1 then w.toNat
    else if w.extractLsb' 40 2 = 2 then 0x20000000000 else 0x30000000000)

/-- R69, with its worked words. -/
def Obligations.EncodingFollowsTheFormula : Prop :=
  (∀ (ts : Tick) (rssi : Byte),
    (encode (.bcn ts rssi)).toNat = 0x10000000000 + ((rssiValue rssi) % 256).toNat * 2 ^ 32 + ts.toNat) ∧
  (∀ ts : Tick, (encode (.bcnx ts)).toNat = ts.toNat) ∧
  (encode .dtick).toNat = 0x20000000000 ∧
  (encode .rdest).toNat = 0x30000000000 ∧
  (∀ i : Instr, decode (encode i) = i) ∧
  encode (.bcn 600000 (BitVec.ofInt 8 (-45))) = 0x1D3000927C0#42 ∧
  encode (.bcn 4294967295 (BitVec.ofInt 8 (-128))) = 0x180FFFFFFFF#42 ∧
  encode (.bcnx 1234) = 0x000000004D2#42 ∧
  decode 0x1D3000927C0#42 = .bcn 600000 0xD3#8 ∧ rssiValue 0xD3#8 = -45

/-- The words of the table 95_test_vectors.md V22 and the operations they stand for; and the container bytes that the
notation paragraph of 95_test_vectors.md writes out for `0x1D3000927C0`, in the layout of the spec's own decision D8. -/
def Obligations.WordsOfTheSpecDecode : Prop :=
  decode 0x1D3000927C0#42 = .bcn 0x000927C0 0xD3 ∧
  decode 0x180FFFFFFFF#42 = .bcn 0xFFFFFFFF 0x80 ∧
  decode 0x10000000000#42 = .bcn 0 0 ∧
  decode 0x000000004D2#42 = .bcnx 1234 ∧
  decode 0x20000000000#42 = .dtick ∧
  decode 0x30000000000#42 = .rdest ∧
  decode 0x2ABCDEF0123#42 = .dtick ∧
  decode 0x3FFFFFFFFFF#42 = .rdest ∧
  decodeBytes [0xC0, 0x27, 0x09, 0x00, 0xD3, 0x01] = .ok (.bcn 600000 0xD3, [])

/-- R62: how the operands of a word are assembled; `TW[40]` says on the collector port whether `rssi` is present. -/
def Obligations.OperandsAreAssembledFromTheirFields : Prop :=
  ∀ w : TWord, w.getLsbD 41 = false →
    (w.getLsbD 40 = false → ∃ ts, decode w = .bcnx ts ∧ ts.toNat = w.toNat % 2 ^ 32) ∧
    (w.getLsbD 40 = true → ∃ ts rssi, decode w = .bcn ts rssi ∧
      ts.toNat = w.toNat % 2 ^ 32 ∧
      rssiValue rssi =
        (if w.getLsbD 39 then ((w.toNat / 2 ^ 32 % 256 : Nat) : Int) - 256 else ((w.toNat / 2 ^ 32 % 256 : Nat) : Int)))

/-- R68, the lines once parsed (`Line`; the text itself is ParsedTextNamesItsNumbers): a line in range is one operation with
the numbers it names, a line out of range is none, and `RST` is the reset event and no transaction. -/
def Obligations.LinesAssembleToTheirNumbers : Prop :=
  (∀ (ts : Nat) (rssi : Int), ts ≤ 4294967295 → -128 ≤ rssi → rssi ≤ 127 →
    ∃ t r, Line.assemble (.bcn ts rssi) = some (.bcn t r) ∧ t.toNat = ts ∧ rssiValue r = rssi) ∧
  (∀ ts : Nat, ts ≤ 4294967295 → ∃ t, Line.assemble (.bcnx ts) = some (.bcnx t) ∧ t.toNat = ts) ∧
  (∀ l : Line, l.wellFormed = false → l.assemble = none) ∧
  (∀ (l : Line) (i : Instr), l.assemble = some i → lineInput l = some (issue i)) ∧
  Line.assemble .dtick = some .dtick ∧ Line.assemble .rdest = some .rdest ∧
  Line.assemble .rst = none ∧ lineInput .rst = some .reset

/-! ## The collector port (40_capture_fifo.md) -/

/-- R80: BCNX completes and changes nothing: not LOG, MINW, EST, SHOWN, and no output. -/
def Obligations.BcnxCompletesAndChangesNothing : Prop :=
  ∀ (ts : Tick) (s : State), exec (.bcnx ts) s = .next s

/-- R81: BCN completes in every state and for every operand, with the effect of its pseudocode: the Sample is pushed, and
when the trigger holds the burst is closed: minimum and count from the scan, that many entries off the OLDEST end, the mean
taken before the trim, EST and DIAG from that mean. The order of mean and eviction is 90 C2's resolution, the drain is C1's;
`rssi = -128` and the exact sum rest on the spec's own decisions D7, D11 (log entries 10, 11, 17); whether the DIAG event is
delivered is a free value (log entry 9). -/
def Obligations.BcnCompletesWithItsEffect : Prop :=
  ∀ (ts : Tick) (rssi : Byte) (s : State) (log : List Sample), log = logPush s.pipe.log ⟨ts, magnitude rssi⟩ →
    (burstTrigger log (elapsed log ts) = false →
      exec (.bcn ts rssi) s = .next { s with pipe := { s.pipe with log := log } }) ∧
    (burstTrigger log (elapsed log ts) = true →
      ∀ (m : Byte) (n : Nat), minScan log = (m, n) →
        ∃ est : Byte, est.toNat = ((s.pipe.minw ++ [m]).map BitVec.toNat).sum / (s.pipe.minw.length + 1) ∧
        exec (.bcn ts rssi) s = .next
          { s with
            pipe := { log := log.drop n,
                      minw := if 4 < s.pipe.minw.length + 1 then (s.pipe.minw ++ [m]).drop 1 else s.pipe.minw ++ [m],
                      est := est, shown := s.pipe.shown }
            ports := { s.ports with
              diag := s.ports.diag ++ [⟨est, Config.diagDelivered s.ports.diag.length⟩] } })

/-- The frame of BCN and BCNX (R80, R81 "State written: always `LOG`; when a burst closes also `MINW` and `EST`. Never
`SHOWN`."; 10_state.md R33). RSSIPIPE has no program counter, no flags and no memory to frame (R26, R27, R40). -/
def Obligations.CollectorFrame : Prop :=
  (∀ (ts : Tick) (s t : State), exec (.bcnx ts) s = .next t →
    t.pipe.log = s.pipe.log ∧ t.pipe.minw = s.pipe.minw ∧ t.pipe.est = s.pipe.est ∧ t.pipe.shown = s.pipe.shown ∧
    t.ports = s.ports ∧ t.shownReset = s.shownReset) ∧
  (∀ (ts : Tick) (rssi : Byte) (s t : State), exec (.bcn ts rssi) s = .next t →
    t.pipe.shown = s.pipe.shown ∧ t.ports.inbox = s.ports.inbox ∧ t.ports.resetDone = s.ports.resetDone ∧
    t.ports.display = s.ports.display ∧ t.ports.responses = s.ports.responses ∧ t.shownReset = s.shownReset ∧
    (burstTrigger (logPush s.pipe.log ⟨ts, magnitude rssi⟩) (elapsed (logPush s.pipe.log ⟨ts, magnitude rssi⟩) ts) = false →
      t.pipe.minw = s.pipe.minw ∧ t.pipe.est = s.pipe.est ∧ t.ports.diag = s.ports.diag))

/-- R82: the magnitude is `|rssi| - 42` or 0, by value, and its range; at -128 it rests on decision D7 (log entry 10). -/
def Obligations.MagnitudeSaturates : Prop :=
  ∀ rssi : Byte,
    (magnitude rssi).toNat = (rssiValue rssi).natAbs - 42 ∧
    (magnitude rssi).toNat ≤ 86 ∧
    ((magnitude rssi).toNat = 0 ↔ -42 ≤ rssiValue rssi ∧ rssiValue rssi ≤ 42) ∧
    ∀ rssi' : Byte, rssiValue rssi' = -rssiValue rssi → magnitude rssi' = magnitude rssi

/-- R83: the push evicts the oldest entry of a full log and no other; the length stays 1..32 and the Sample is the newest
entry. (That the eviction comes first is the spec's derivation from R29; the result does not show it.) -/
def Obligations.LogPushEvictsOnlyTheOldest : Prop :=
  ∀ (log : List Sample) (x : Sample), log.length ≤ 32 →
    logPush log x = (if log.length = 32 then log.drop 1 else log) ++ [x] ∧
    1 ≤ (logPush log x).length ∧ (logPush log x).length ≤ 32 ∧ (logPush log x).getLast? = some x

/-- R84: after the push, elapsed is the operand's `ts` less the oldest entry's, modulo 2^32; it is 0 when the log was empty;
`ts` is the newest entry's. -/
def Obligations.ElapsedIsTakenFromTheOldestModulo : Prop :=
  ∀ (log : List Sample) (ts : Tick) (mag : Byte),
    (∃ oldest, (logPush log ⟨ts, mag⟩).head? = some oldest ∧
      (elapsed (logPush log ⟨ts, mag⟩) ts).toNat = (ts.toNat + 2 ^ 32 - oldest.ts.toNat) % 2 ^ 32) ∧
    (log = [] → elapsed (logPush log ⟨ts, mag⟩) ts = 0) ∧
    (∃ newest, (logPush log ⟨ts, mag⟩).getLast? = some newest ∧ newest.ts = ts)

/-- R85: the trigger is fullness or a strict, unsigned comparison with 250000. -/
def Obligations.BurstTriggerIsFullOrStrictlyLate : Prop :=
  ∀ (log : List Sample) (e : Tick), burstTrigger log e = true ↔ log.length = 32 ∨ 250000 < e.toNat

/-- R86: without a trigger a BCN appends and does nothing else, and no DISPLAY operation can tell. -/
def Obligations.NoBurstNoEffectBeyondTheAppend : Prop :=
  ∀ (ts : Tick) (rssi : Byte) (s : State) (log : List Sample), log = logPush s.pipe.log ⟨ts, magnitude rssi⟩ →
    burstTrigger log (elapsed log ts) = false →
    ∃ t, exec (.bcn ts rssi) s = .next t ∧
      t.pipe.log = log ∧ t.pipe.minw = s.pipe.minw ∧ t.pipe.est = s.pipe.est ∧ t.ports.diag = s.ports.diag ∧
      ∀ ds : List DisplayOp, (runDisplay ds t).ports = (runDisplay ds s).ports

/-! ## The window minimum (41_window_minimum.md) -/

/-- R100, R102: on a log that holds an entry the scan finds the maximal run of valid entries at the newest end: at least one,
at most all; the entry before the run, if any, is not valid; and `m` is the least magnitude of the run, one that an entry
holds (so the seed, decision D11, does not show). -/
def Obligations.ScanFindsTheNewestValidRun : Prop :=
  ∀ (log : List Sample) (newest : Sample), log.getLast? = some newest →
    ∀ (m : Byte) (n : Nat), minScan log = (m, n) →
      1 ≤ n ∧ n ≤ log.length ∧
      (∀ e ∈ log.drop (log.length - n), (wsub32 newest.ts e.ts).toNat < 250000) ∧
      (∀ e, log.reverse[n]? = some e → 250000 ≤ (wsub32 newest.ts e.ts).toNat) ∧
      (∃ e ∈ log.drop (log.length - n), e.mag = m) ∧
      (∀ e ∈ log.drop (log.length - n), m.toNat ≤ e.mag.toNat)

/-- R103 (MS §8's first property, derived by the spec): on a time-ordered log that spans less than 2^32 ticks the valid
entries are exactly a suffix, the scan finds all of them, and `m` is the true minimum over all valid entries. -/
def Obligations.TimeOrderedScanIsTheTrueMinimum : Prop :=
  ∀ (log : List Sample) (τ : List Nat) (newest : Sample), TimeOrdered log τ → log.getLast? = some newest →
    ∀ (m : Byte) (n : Nat), minScan log = (m, n) →
      log.filter (fun e => decide ((wsub32 newest.ts e.ts).toNat < 250000)) = log.drop (log.length - n) ∧
      n = (log.filter (fun e => decide ((wsub32 newest.ts e.ts).toNat < 250000))).length ∧
      (∃ e ∈ log, (wsub32 newest.ts e.ts).toNat < 250000 ∧ e.mag = m) ∧
      (∀ e ∈ log, (wsub32 newest.ts e.ts).toNat < 250000 → m.toNat ≤ e.mag.toNat)

/-- R101: the drain takes that many entries off the OLDEST end (90 C1), and the newest stay in their order. -/
def Obligations.DrainRemovesTheOldestEntries : Prop :=
  ∀ (n : Nat) (log : List Sample), n ≤ log.length →
    logDrain n log = log.drop n ∧ (logDrain n log).length = log.length - n ∧ log.take n ++ logDrain n log = log

/-- R104 (c), derived by the spec: a BCN that fills the log when every entry is valid leaves the log empty, whatever the
timestamps' order, and EST is then the mean with the minimum of all 32 magnitudes in the window. That the mean is taken over
the window before the trim is 90 C2's resolution (log entry 17), that its sum is exact decision D11 (log entry 11). -/
def Obligations.DenseFullBurstEmptiesTheLog : Prop :=
  ∀ (ts : Tick) (rssi : Byte) (s : State), s.pipe.log.length = 31 →
    (∀ e ∈ s.pipe.log, (wsub32 ts e.ts).toNat < 250000) →
    ∃ t, exec (.bcn ts rssi) s = .next t ∧ t.pipe.log = [] ∧
      t.ports.diag.length = s.ports.diag.length + 1 ∧
      ∃ m : Byte, (∀ e ∈ s.pipe.log, m.toNat ≤ e.mag.toNat) ∧ m.toNat ≤ (magnitude rssi).toNat ∧
        ((∃ e ∈ s.pipe.log, e.mag = m) ∨ m = magnitude rssi) ∧
        t.pipe.est.toNat = (((s.pipe.minw ++ [m]).map BitVec.toNat).sum) / (s.pipe.minw.length + 1)

/-! ## The moving average (42_moving_average.md) -/

/-- R111: the mean of a window is the floor of the exact quotient and at most its largest entry, so the byte loses nothing
(exactness of the sum is decision D11, log entry 11). -/
def Obligations.MeanIsTheFloorOfTheExactQuotient : Prop :=
  ∀ w : List Byte, w ≠ [] →
    (mean w).toNat = (w.map BitVec.toNat).sum / w.length ∧ ∃ v ∈ w, (mean w).toNat ≤ v.toNat

/-- R110, R112: the push evicts nothing, the trim evicts the oldest of five, and lengths go 0..4 to 1..5 to at most 4. -/
def Obligations.WindowPushThenTrim : Prop :=
  ∀ (w : List Byte) (m : Byte),
    minwPush w m = w ++ [m] ∧
    minwTrim w = (if 4 < w.length then w.drop 1 else w) ∧
    (w.length ≤ 4 → 1 ≤ (minwPush w m).length ∧ (minwPush w m).length ≤ 5 ∧ (minwTrim (minwPush w m)).length ≤ 4)

/-- R113, derived: after the minima `ms` the window holds the last four of them at most, and the estimate that the next
minimum `m` publishes is the truncated mean of the last five at most: a 5-tap moving average with a 4-deep memory. -/
def Obligations.FiveTapMovingAverage : Prop :=
  ∀ (ms : List Byte) (m : Byte),
    windowAfter ms = ms.drop (ms.length - 4) ∧
    (mean (minwPush (windowAfter ms) m)).toNat =
      ((((ms ++ [m]).drop (ms.length + 1 - 5)).map BitVec.toNat).sum) / (min (ms.length + 1) 5)

/-! ## The reader port (43_publish_display.md) -/

/-- R122: RDEST completes, answers EST and writes no state. -/
def Obligations.RdestAnswersTheEstimate : Prop :=
  ∀ s : State, exec .rdest s =
    .next { s with ports := { s.ports with responses := s.ports.responses ++ [.rdest s.pipe.est] } }

/-- R123: DTICK completes: SHOW and the new SHOWN only when the clamped index differs from SHOWN, MUX after it and always,
and the response. That SHOWN takes the new index is the spec's derivation from MS §4.3 step 3. -/
def Obligations.DtickCompletesWithItsEffect : Prop :=
  ∀ (s : State) (i : Index), i.val = min 26 s.pipe.est.toNat →
    exec .dtick s = .next
      (if s.pipe.shown = some i then
        { s with ports := { s.ports with
          display := s.ports.display ++ [.mux]
          responses := s.ports.responses ++ [.dtick (BitVec.ofNat 7 (0x40 + i.val))] } }
      else
        { s with
          pipe := { s.pipe with shown := some i }
          ports := { s.ports with
            display := s.ports.display ++ [.load i, .mux]
            responses := s.ports.responses ++ [.dtick (BitVec.ofNat 7 (0x60 + i.val))] } })

/-- The frame of DTICK and RDEST (R122 "State written: none", R123 "Never `LOG`, `MINW` or `EST`"; 10_state.md R33). -/
def Obligations.ReaderFrame : Prop :=
  (∀ s t : State, exec .dtick s = .next t →
    t.pipe.log = s.pipe.log ∧ t.pipe.minw = s.pipe.minw ∧ t.pipe.est = s.pipe.est ∧ t.ports.inbox = s.ports.inbox ∧
    t.ports.resetDone = s.ports.resetDone ∧ t.ports.diag = s.ports.diag ∧ t.shownReset = s.shownReset ∧
    (t.pipe.shown = s.pipe.shown ∨ ∃ i, t.pipe.shown = some i ∧ t.ports.display = s.ports.display ++ [.load i, .mux])) ∧
  (∀ s t : State, exec .rdest s = .next t →
    t.pipe = s.pipe ∧ t.ports.inbox = s.ports.inbox ∧ t.ports.resetDone = s.ports.resetDone ∧
    t.ports.display = s.ports.display ∧ t.ports.diag = s.ports.diag ∧ t.shownReset = s.shownReset)

/-- R123, corner case: a second DTICK with EST unchanged emits only MUX and leaves SHOWN, and answers the same index with
`show` clear. -/
def Obligations.SecondTickOnlyMultiplexes : Prop :=
  ∀ (s t : State) (i : Index), i.val = min 26 s.pipe.est.toNat → exec .dtick s = .next t →
    exec .dtick t = .next
      { t with ports := { t.ports with
        display := t.ports.display ++ [.mux]
        responses := t.ports.responses ++ [.dtick (BitVec.ofNat 7 (0x40 + i.val))] } }

/-- R124: the clamp. -/
def Obligations.ClampIsTheSmallerOfTwentySixAndTheEstimate : Prop :=
  ∀ e : Byte, (clamp e).val = min 26 e.toNat ∧ (e.toNat ≤ 26 → (clamp e).val = e.toNat) ∧
    (26 ≤ e.toNat → (clamp e).val = 26)

/-- R67: BCN and BCNX respond nothing; RDEST responds EST; DTICK responds seven bits: `mux` 1, `show` exactly when a load was
commanded, `index` the clamped index, never 27..31. -/
def Obligations.ResponseWords : Prop :=
  (∀ (ts : Tick) (s t : State), exec (.bcnx ts) s = .next t → t.ports.responses = s.ports.responses) ∧
  (∀ (ts : Tick) (rssi : Byte) (s t : State), exec (.bcn ts rssi) s = .next t → t.ports.responses = s.ports.responses) ∧
  (∀ s t : State, exec .rdest s = .next t → t.ports.responses = s.ports.responses ++ [.rdest s.pipe.est]) ∧
  (∀ s t : State, exec .dtick s = .next t → ∃ rr : BitVec 7,
    t.ports.responses = s.ports.responses ++ [.dtick rr] ∧
    rr.getLsbD 6 = true ∧
    (rr.getLsbD 5 = true ↔ t.ports.display = s.ports.display ++ [.load (clamp s.pipe.est), .mux]) ∧
    (rr.getLsbD 5 = false ↔ t.ports.display = s.ports.display ++ [.mux]) ∧
    (rr.extractLsb' 0 5).toNat = (clamp s.pipe.est).val ∧ (rr.extractLsb' 0 5).toNat ≤ 26)

/-- 20_memory.md R47 (a), (b): in a state that meets the invariant of R30, both loads of EST see the latest element of the
store order, whose first element is the reset value 0. -/
def Obligations.LoadsSeeTheLatestStore : Prop :=
  ∀ s : State, ReachInv s →
    (∃ t, exec .rdest s = .next t ∧ t.ports.responses = s.ports.responses ++ [.rdest (latestStore s)] ∧
      published t = published s) ∧
    (∃ t, exec .dtick s = .next t ∧ t.pipe.shown = some (clamp (latestStore s)) ∧ published t = published s)

/-! ## The machine -/

/-- 00_scope.md R3, 10_state.md R26, 92 D6: when the next input is a transaction that breaks no duty of R141, the step is the
operation its word decodes to, in the state with that input taken. (The inbox and the conditions carried by a request are the
model's own, log entries 1, 4, 5.) -/
def Obligations.StepRunsTheDecodedOperation : Prop :=
  ∀ (s : State) (r : Request) (rest : List Input) (i : Instr), s.ports.inbox = .transaction r :: rest →
    decode r.word = i → Conforms r s →
    step s = exec i { s with ports := { s.ports with inbox := rest } }

/-- The idle step is the model's choice (log entry 3, DESIGN CHOICE): 00_scope.md R8 says only that the block "has no
autonomous step". The reset event sets LOG, MINW, EST and SHOWN to their values of 10_state.md R31, whatever `SHOWN_RESET` is
(70_reset_and_hazards.md R160; the spec's decisions D12, D17, log entries 6, 7). That it sets resetDone is log entry 8 and
that the output lists start again is log entry 9 (both DESIGN CHOICE). -/
def Obligations.IdleAndResetSteps : Prop :=
  ∀ s : State,
    (s.ports.inbox = [] → step s = .next s) ∧
    (∀ rest, s.ports.inbox = .reset :: rest → step s = .next
      { pipe := { log := [], minw := [], est := 0, shown := s.shownReset }
        ports := { inbox := rest, resetDone := true, display := [], diag := [], responses := [] }
        shownReset := s.shownReset })

/-- 10_state.md R31: what reset leaves. That LOG and MINW are empty is decision D17; SHOWN = NONE is the model's choice of the
open parameter `SHOWN_RESET` (log entry 6), and the empty ports are the model's own (log entries 1, 8, 9). -/
def Obligations.ResetLeavesTheseValues : Prop :=
  State.reset.pipe.log = [] ∧ State.reset.pipe.minw = [] ∧ State.reset.pipe.est = 0 ∧
  State.reset.pipe.shown = Config.shownReset ∧ Config.shownReset = none ∧
  State.reset.ports.inbox = [] ∧ State.reset.ports.resetDone = true ∧
  ∀ v : Option Index, Pipe.reset v = { log := [], minw := [], est := 0, shown := v }

/-- After the reset event two machines that differ in anything but the inputs still to come and `SHOWN_RESET` are one. R161
says it of Samples, minima and estimates; that any reset is a power-on reset is decision D17 (log entry 7, DEDUCED), and that
the whole states are equal rests on resetDone being set (log entry 8) and on the output lists starting again (log entry 9),
both DESIGN CHOICE. -/
def Obligations.NothingSurvivesReset : Prop :=
  ∀ (s s' : State) (rest : List Input), s.ports.inbox = .reset :: rest → s'.ports.inbox = .reset :: rest →
    s.shownReset = s'.shownReset → ∃ t, step s = .next t ∧ step s' = .next t

/-- 60_exceptions.md R141 (decision D14): a transaction is refused exactly when it breaks a duty, and each name of a refusal
says which one. The conditions that a request carries, the names, and their order, by which `beforeReset` is given whenever
reset has not completed, are the model's (log entry 5, DESIGN CHOICE). -/
def Obligations.ProtocolViolationsAreRefused : Prop :=
  ∀ (s : State) (r : Request) (rest : List Input), s.ports.inbox = .transaction r :: rest →
    ((∃ why, step s = .refused why) ↔ ¬ Conforms r s) ∧
    (step s = .refused .beforeReset ↔ s.ports.resetDone = false) ∧
    (step s = .refused .wrongPort → r.port ≠ portOf (decode r.word)) ∧
    (step s = .refused .wrongContext → r.agent ≠ agentOf (portOf (decode r.word))) ∧
    (step s = .refused .reentrantCollector → portOf (decode r.word) = .collector ∧ r.collectorBusy = true) ∧
    (step s = .refused .displayUnlocked → decode r.word = .dtick ∧ r.displayLock = false) ∧
    ∀ m, step s ≠ .refused (.notModelled m)

/-- R140: every operation is total on every operand and every state; no step faults. -/
def Obligations.EveryOperationIsTotal : Prop :=
  (∀ (i : Instr) (s : State), ∃ t, exec i s = .next t) ∧ (∀ (s : State) (f : Fault), step s ≠ .fault f)

/-- 10_state.md R30 (derived by the spec), kept by every step from every state that meets it: LogLen at most 31, MinwLen the
smaller of 4 and the number of bursts, magnitudes and EST at most 86, EST the latest estimate published since reset or 0. -/
def Obligations.EveryStepKeepsTheReachableInvariant : Prop :=
  ∀ s t : State, ReachInv s → step s = .next t → ReachInv t

/-- R30 holds right after reset, for every value of `SHOWN_RESET`. -/
def Obligations.ReachableInvariantHoldsAtReset : Prop :=
  ReachInv State.reset ∧ ∀ (v : Option Index) (inbox : List Input), ReachInv (State.resetWith v inbox)

/-- 10_state.md R29 between operations, alone, also in states that no run reaches (a full log among them). -/
def Obligations.EveryStepKeepsTheStorageBounds : Prop :=
  StorageBounds State.reset ∧ ∀ s t : State, StorageBounds s → step s = .next t → StorageBounds t

/-- 10_state.md R33 and 70_reset_and_hazards.md R165 (derived): LOG, MINW, EST and the DIAG output change only by a BCN or by
the reset event: no BCNX, no DTICK, no RDEST and no idle step. -/
def Obligations.OnlyBeaconsMoveThePipeline : Prop :=
  ∀ s t : State, step s = .next t →
    (t.pipe.log = s.pipe.log ∧ t.pipe.minw = s.pipe.minw ∧ t.pipe.est = s.pipe.est ∧ t.ports.diag = s.ports.diag) ∨
    (∃ rest, s.ports.inbox = .reset :: rest) ∨
    (∃ r rest ts rssi, s.ports.inbox = .transaction r :: rest ∧ decode r.word = .bcn ts rssi ∧
      r.agent = .collector ∧ r.port = .collector)

/-- 10_state.md R24, R33: SHOWN changes only by a DTICK, issued by DISPLAY with the display lock, or by the reset event; what
a DTICK puts there is the clamp of the EST it loads. -/
def Obligations.OnlyTicksMoveTheShownIndex : Prop :=
  ∀ s t : State, step s = .next t →
    t.pipe.shown = s.pipe.shown ∨
    (∃ rest, s.ports.inbox = .reset :: rest) ∨
    (∃ r rest, s.ports.inbox = .transaction r :: rest ∧ decode r.word = .dtick ∧ r.agent = .display ∧
      r.displayLock = true ∧ t.pipe.shown = some (clamp s.pipe.est))

/-- 10_state.md R33: DISPLAY learns nothing of LOG and MINW: two states that differ only there give, through any DISPLAY
operations, the same outputs and the same SHOWN. -/
def Obligations.DisplayIsBlindToTheFifos : Prop :=
  ∀ (ds : List DisplayOp) (s : State) (log : List Sample) (minw : List Byte),
    runDisplay ds { s with pipe := { s.pipe with log := log, minw := minw } } =
      { runDisplay ds s with pipe := { (runDisplay ds s).pipe with log := log, minw := minw } }

/-- 10_state.md R33: the collector port neither reads nor writes SHOWN. -/
def Obligations.CollectorIsBlindToTheShownIndex : Prop :=
  ∀ (i : Instr) (s t : State) (v : Option Index), portOf i = .collector → exec i s = .next t →
    exec i { s with pipe := { s.pipe with shown := v } } = .next { t with pipe := { t.pipe with shown := v } }

/-- 43_publish_display.md R121, 92 D16: nothing the block does depends on the DIAG events emitted or on whether they were
delivered. -/
def Obligations.DiagDeliveryDecidesNothing : Prop :=
  ∀ (i : Instr) (s t : State) (d : List DiagEvent), exec i s = .next t →
    ∃ t', exec i { s with ports := { s.ports with diag := d } } = .next t' ∧
      t'.pipe = t.pipe ∧ t'.ports.display = t.ports.display ∧ t'.ports.responses = t.ports.responses ∧
      t'.ports.inbox = t.ports.inbox

/-- 20_memory.md R47 (a), (c), 40_capture_fifo.md R81 ("One `BCN` closes at most one burst"): but for the reset event, which
begins it anew, the store order only grows, by one store at most in a step, and EST changes only by that store. -/
def Obligations.StoreOrderOnlyGrows : Prop :=
  ∀ s t : State, step s = .next t → (∀ rest, s.ports.inbox ≠ .reset :: rest) →
    (published t = published s ∧ t.pipe.est = s.pipe.est) ∨ published t = published s ++ [t.pipe.est]

/-! ## Preemption (20_memory.md R51) -/

/-- R51 (derived by the spec): whatever DISPLAY operations preempt a BCN, between whichever of its sub-steps, what a BCN that
has ended leaves is what a serial order leaves: some of the DISPLAY operations, then the whole BCN, then the others, in
their own order. -/
def Obligations.PreemptedBeaconIsSerial : Prop :=
  ∀ (sched : List (List DisplayOp)) (ts : Tick) (rssi : Byte) (s t : State),
    runPreempted sched (.magnitude ts rssi) s = (.done, t) →
    ∃ before after u, before ++ after = sched.flatten ∧
      exec (.bcn ts rssi) (runDisplay before s) = .next u ∧ t = runDisplay after u

/-- The sub-steps of 40_capture_fifo.md R81, as the model's `Stage` cuts them (log entry 4, DEDUCED): a BCN that nothing
preempts ends within eleven of them, in the state that exec gives. -/
def Obligations.SubstepsMakeUpTheBeacon : Prop :=
  ∀ (ts : Tick) (rssi : Byte) (s t : State), exec (.bcn ts rssi) s = .next t →
    runPreempted (List.replicate 11 []) (.magnitude ts rssi) s = (.done, t)

/-- Eleven sub-steps end a BCN under every schedule. That a BCN completes is 70_reset_and_hazards.md R170; that there are
eleven sub-steps is the count of R81's steps (40_capture_fifo.md section 2) as the model's `Stage` cuts them (log entry 4,
DEDUCED), and that nothing else of R170 is kept is log entry 19 (DESIGN CHOICE). -/
def Obligations.EveryBeaconEnds : Prop :=
  ∀ (sched : List (List DisplayOp)) (ts : Tick) (rssi : Byte) (s : State), 11 ≤ sched.length →
    ∃ t, runPreempted sched (.magnitude ts rssi) s = (.done, t)

/-- 20_memory.md R44, 60_exceptions.md R145: EST moves at one sub-step only, the store, and takes the whole new value there; a
halt before it leaves the old value. -/
def Obligations.EstimateMovesOnlyAtTheStore : Prop :=
  ∀ (g : Stage) (ds : List DisplayOp) (s : State),
    (substep g (runDisplay ds s)).2.pipe.est = s.pipe.est ∨
    ∃ est, g = .publish est ∧ (substep g (runDisplay ds s)).2.pipe.est = est

/-- 10_state.md R29 between any two sub-steps, preempted or not: the log never exceeds 32 entries, and the window five, and
four except from the push to the trim. -/
def Obligations.StorageBoundsBetweenSubsteps : Prop :=
  ∀ (g : Stage) (ds : List DisplayOp) (s : State), StageBounds g s →
    StageBounds (substep g (runDisplay ds s)).1 (substep g (runDisplay ds s)).2

/-! ## The three agents at sub-steps (00_scope.md R8) -/

/-- 00_scope.md R8 (RESET "may preempt everything"), 70_reset_and_hazards.md R160 ("no operation is in progress during or
across it"): at whatever point of whatever operations, the reset event can come, ends both agents' operations, and leaves
what a reset before them would have left; so does a reset after an operation that ended. Where an operation is cut into
sub-steps is the model's (log entry 4, DEDUCED); that the output lists start again, so that what a cut operation had emitted
is not in them, is log entry 9, and how a step shows such a reset is log entry 22 (DESIGN CHOICE). -/
def Obligations.ResetPreemptsEveryOperation : Prop :=
  (∀ (ms : List Move) (c d : Running), runMoves ms c = some d → move d .reset = some (Running.idle (resetEvent c.state))) ∧
  (∀ (i : Instr) (s t : State), exec i s = .next t → resetEvent t = resetEvent s)

/-- 20_memory.md R51 (derived by the spec) over whole runs of both agents at sub-steps: what any moves without a reset leave,
from no operation in progress to none, is what some serial order of the issued operations leaves, with each port's operations
in the order in which they were issued. The cut into sub-steps is log entry 4 (DEDUCED). -/
def Obligations.InterleavedAgentsAreSerial : Prop :=
  ∀ (ms : List Move) (s t : State), .reset ∉ ms → runMoves ms (Running.idle s) = some (Running.idle t) →
    ∃ is : List Instr, execAll is s = .next t ∧
      ∀ p : Port, is.filter (fun i => portOf i == p) = (ms.filterMap Move.operation).filter (fun i => portOf i == p)

/-- 43_publish_display.md R122, R123: a DISPLAY operation that begins at any point of a BCN takes its sub-steps (five of a
DTICK, two of an RDEST, as the model cuts them, log entry 4) and leaves what exec of it gives, the BCN where it was. -/
def Obligations.ReaderSubstepsMakeUpTheOperation : Prop :=
  ∀ (g : Stage) (s t : State),
    (exec .dtick s = .next t →
      runMoves (.issue .dtick :: List.replicate 5 .reader) { collector := g, reader := .done, state := s } =
        some { collector := g, reader := .done, state := t }) ∧
    (exec .rdest s = .next t →
      runMoves (.issue .rdest :: List.replicate 2 .reader) { collector := g, reader := .done, state := s } =
        some { collector := g, reader := .done, state := t })

/-- 00_scope.md R8, 60_exceptions.md R143, R141 (a): COLLECTOR waits while a DISPLAY operation is in progress, no agent issues
an operation over one of its own, DISPLAY can issue one at any point of a BCN, and a BCN in progress goes on when no DISPLAY
operation is. (That such a move is absent, and no refusal, is this machine's form, log entry 22.) -/
def Obligations.PriorityOrdersTheAgents : Prop :=
  ∀ c : Running,
    (c.reader ≠ .done → ∀ ts rssi, move c (.bcn ts rssi) = none ∧ move c (.bcnx ts) = none ∧ move c .collector = none) ∧
    (c.collector ≠ .done → ∀ ts rssi, move c (.bcn ts rssi) = none ∧ move c (.bcnx ts) = none) ∧
    (c.reader ≠ .done → ∀ d, move c (.issue d) = none) ∧
    (c.reader = .done → ∀ d, move c (.issue d) = some { c with reader := .load d }) ∧
    (c.reader = .done → c.collector ≠ .done → ∃ c', move c .collector = some c' ∧ c'.reader = .done)

/-! ## The textual form (30_encoding.md R68) -/

/-- R68 (decision D22): the text of a line is read as the line of its numbers, in every form: a decimal or a `0x` timestamp
in `BCN` and in `BCNX`, an RSSI with a minus sign or without, and each of the lines with a comment or without. (That a blank is
a space or a tab, where blanks may stand, and that hexadecimal letters may be capital or small are log entry 15, DESIGN
CHOICE.) -/
def Obligations.ParsedTextNamesItsNumbers : Prop :=
  ∀ (ds es : List (Fin 10)) (hs : List (Fin 16)) (capital : Bool) (gap pad trail tail : List Char),
    ds ≠ [] → es ≠ [] → hs ≠ [] → gap ≠ [] → (∀ c ∈ gap ++ pad ++ trail, isBlank c = true) →
    (tail = [] ∨ ∃ comment, tail = ';' :: comment) →
    (∀ ts ∈ [(decText ds, decValue ds), (['0', 'x'] ++ hexText capital hs, hexValue hs)],
      (∀ rssi ∈ [(decText es, (decValue es : Int)), ('-' :: decText es, -(decValue es : Int))],
        parseLine (['B', 'C', 'N'] ++ gap ++ ts.1 ++ [','] ++ pad ++ rssi.1 ++ trail ++ tail) = some (.bcn ts.2 rssi.2)) ∧
      parseLine (['B', 'C', 'N', 'X'] ++ gap ++ ts.1 ++ trail ++ tail) = some (.bcnx ts.2)) ∧
    parseLine (['D', 'T', 'I', 'C', 'K'] ++ trail ++ tail) = some .dtick ∧
    parseLine (['R', 'D', 'E', 'S', 'T'] ++ trail ++ tail) = some .rdest ∧
    parseLine (['R', 'S', 'T'] ++ trail ++ tail) = some .rst

/-! ## Time (70_reset_and_hazards.md) -/

/-- R166: ages are taken modulo 2^32: with true tick counts `a ≤ b` of the oldest entry and of the operand, elapsed is their
distance modulo 2^32, so an entry 2^32 + 5000 ticks old counts as 5000 ticks old, and a step backwards of 1 to
2^32 - 250001 ticks closes a burst at once (a longer one has an elapsed of at most 250000 again). -/
def Obligations.TimestampsAlias : Prop :=
  (∀ (a b : Nat) (mag : Byte) (rest : List Sample), a ≤ b →
    (elapsed (⟨BitVec.ofNat 32 a, mag⟩ :: rest) (BitVec.ofNat 32 b)).toNat = (b - a) % 2 ^ 32) ∧
  (∀ (a b : Nat) (mag : Byte) (rest : List Sample), b < a → a - b < 2 ^ 32 - 250000 →
    burstTrigger (⟨BitVec.ofNat 32 a, mag⟩ :: rest) (elapsed (⟨BitVec.ofNat 32 a, mag⟩ :: rest) (BitVec.ofNat 32 b)) = true)
end

