-- ==== Sys2Proof/Laws/State.lean ====
section
/-! SUPPORT. What each update of the state does to each field, once and by `rfl`, so that no later proof unfolds a record
update. -/

namespace Sys2Proof.Machine
open Sys2Proof

variable (s : State)

/-! ### `setLog`: write of `LOG` -/

@[simp] theorem setLog_log (x : List Sample) : (s.setLog x).pipe.log = x := rfl
@[simp] theorem setLog_minw (x : List Sample) : (s.setLog x).pipe.minw = s.pipe.minw := rfl
@[simp] theorem setLog_est (x : List Sample) : (s.setLog x).pipe.est = s.pipe.est := rfl
@[simp] theorem setLog_shown (x : List Sample) : (s.setLog x).pipe.shown = s.pipe.shown := rfl
@[simp] theorem setLog_inbox (x : List Sample) : (s.setLog x).ports.inbox = s.ports.inbox := rfl
@[simp] theorem setLog_resetDone (x : List Sample) : (s.setLog x).ports.resetDone = s.ports.resetDone := rfl
@[simp] theorem setLog_display (x : List Sample) : (s.setLog x).ports.display = s.ports.display := rfl
@[simp] theorem setLog_diag (x : List Sample) : (s.setLog x).ports.diag = s.ports.diag := rfl
@[simp] theorem setLog_responses (x : List Sample) : (s.setLog x).ports.responses = s.ports.responses := rfl
@[simp] theorem setLog_shownReset (x : List Sample) : (s.setLog x).shownReset = s.shownReset := rfl

/-! ### `setMinw`: write of `MINW` -/

@[simp] theorem setMinw_log (x : List Byte) : (s.setMinw x).pipe.log = s.pipe.log := rfl
@[simp] theorem setMinw_minw (x : List Byte) : (s.setMinw x).pipe.minw = x := rfl
@[simp] theorem setMinw_est (x : List Byte) : (s.setMinw x).pipe.est = s.pipe.est := rfl
@[simp] theorem setMinw_shown (x : List Byte) : (s.setMinw x).pipe.shown = s.pipe.shown := rfl
@[simp] theorem setMinw_inbox (x : List Byte) : (s.setMinw x).ports.inbox = s.ports.inbox := rfl
@[simp] theorem setMinw_resetDone (x : List Byte) : (s.setMinw x).ports.resetDone = s.ports.resetDone := rfl
@[simp] theorem setMinw_display (x : List Byte) : (s.setMinw x).ports.display = s.ports.display := rfl
@[simp] theorem setMinw_diag (x : List Byte) : (s.setMinw x).ports.diag = s.ports.diag := rfl
@[simp] theorem setMinw_responses (x : List Byte) : (s.setMinw x).ports.responses = s.ports.responses := rfl
@[simp] theorem setMinw_shownReset (x : List Byte) : (s.setMinw x).shownReset = s.shownReset := rfl

/-! ### `atomStore`: atomic store to `EST` -/

@[simp] theorem atomStore_log (x : Byte) : (s.atomStore x).pipe.log = s.pipe.log := rfl
@[simp] theorem atomStore_minw (x : Byte) : (s.atomStore x).pipe.minw = s.pipe.minw := rfl
@[simp] theorem atomStore_est (x : Byte) : (s.atomStore x).pipe.est = x := rfl
@[simp] theorem atomStore_shown (x : Byte) : (s.atomStore x).pipe.shown = s.pipe.shown := rfl
@[simp] theorem atomStore_inbox (x : Byte) : (s.atomStore x).ports.inbox = s.ports.inbox := rfl
@[simp] theorem atomStore_resetDone (x : Byte) : (s.atomStore x).ports.resetDone = s.ports.resetDone := rfl
@[simp] theorem atomStore_display (x : Byte) : (s.atomStore x).ports.display = s.ports.display := rfl
@[simp] theorem atomStore_diag (x : Byte) : (s.atomStore x).ports.diag = s.ports.diag := rfl
@[simp] theorem atomStore_responses (x : Byte) : (s.atomStore x).ports.responses = s.ports.responses := rfl
@[simp] theorem atomStore_shownReset (x : Byte) : (s.atomStore x).shownReset = s.shownReset := rfl

/-! ### `setShown`: write of `SHOWN` -/

@[simp] theorem setShown_log (x : Option Index) : (s.setShown x).pipe.log = s.pipe.log := rfl
@[simp] theorem setShown_minw (x : Option Index) : (s.setShown x).pipe.minw = s.pipe.minw := rfl
@[simp] theorem setShown_est (x : Option Index) : (s.setShown x).pipe.est = s.pipe.est := rfl
@[simp] theorem setShown_shown (x : Option Index) : (s.setShown x).pipe.shown = x := rfl
@[simp] theorem setShown_inbox (x : Option Index) : (s.setShown x).ports.inbox = s.ports.inbox := rfl
@[simp] theorem setShown_resetDone (x : Option Index) : (s.setShown x).ports.resetDone = s.ports.resetDone := rfl
@[simp] theorem setShown_display (x : Option Index) : (s.setShown x).ports.display = s.ports.display := rfl
@[simp] theorem setShown_diag (x : Option Index) : (s.setShown x).ports.diag = s.ports.diag := rfl
@[simp] theorem setShown_responses (x : Option Index) : (s.setShown x).ports.responses = s.ports.responses := rfl
@[simp] theorem setShown_shownReset (x : Option Index) : (s.setShown x).shownReset = s.shownReset := rfl

/-! ### `emitDisplay`: event on the display output -/

@[simp] theorem emitDisplay_log (x : DisplayEvent) : (s.emitDisplay x).pipe.log = s.pipe.log := rfl
@[simp] theorem emitDisplay_minw (x : DisplayEvent) : (s.emitDisplay x).pipe.minw = s.pipe.minw := rfl
@[simp] theorem emitDisplay_est (x : DisplayEvent) : (s.emitDisplay x).pipe.est = s.pipe.est := rfl
@[simp] theorem emitDisplay_shown (x : DisplayEvent) : (s.emitDisplay x).pipe.shown = s.pipe.shown := rfl
@[simp] theorem emitDisplay_inbox (x : DisplayEvent) : (s.emitDisplay x).ports.inbox = s.ports.inbox := rfl
@[simp] theorem emitDisplay_resetDone (x : DisplayEvent) : (s.emitDisplay x).ports.resetDone = s.ports.resetDone := rfl
@[simp] theorem emitDisplay_display (x : DisplayEvent) : (s.emitDisplay x).ports.display = s.ports.display ++ [x] := rfl
@[simp] theorem emitDisplay_diag (x : DisplayEvent) : (s.emitDisplay x).ports.diag = s.ports.diag := rfl
@[simp] theorem emitDisplay_responses (x : DisplayEvent) : (s.emitDisplay x).ports.responses = s.ports.responses := rfl
@[simp] theorem emitDisplay_shownReset (x : DisplayEvent) : (s.emitDisplay x).shownReset = s.shownReset := rfl

/-! ### `emitDiag`: event on the diagnostic output -/

@[simp] theorem emitDiag_log (x : Byte) : (s.emitDiag x).pipe.log = s.pipe.log := rfl
@[simp] theorem emitDiag_minw (x : Byte) : (s.emitDiag x).pipe.minw = s.pipe.minw := rfl
@[simp] theorem emitDiag_est (x : Byte) : (s.emitDiag x).pipe.est = s.pipe.est := rfl
@[simp] theorem emitDiag_shown (x : Byte) : (s.emitDiag x).pipe.shown = s.pipe.shown := rfl
@[simp] theorem emitDiag_inbox (x : Byte) : (s.emitDiag x).ports.inbox = s.ports.inbox := rfl
@[simp] theorem emitDiag_resetDone (x : Byte) : (s.emitDiag x).ports.resetDone = s.ports.resetDone := rfl
@[simp] theorem emitDiag_display (x : Byte) : (s.emitDiag x).ports.display = s.ports.display := rfl
@[simp] theorem emitDiag_diag (x : Byte) : (s.emitDiag x).ports.diag = s.ports.diag ++ [⟨x, Config.diagDelivered s.ports.diag.length⟩] := rfl
@[simp] theorem emitDiag_responses (x : Byte) : (s.emitDiag x).ports.responses = s.ports.responses := rfl
@[simp] theorem emitDiag_shownReset (x : Byte) : (s.emitDiag x).shownReset = s.shownReset := rfl

/-! ### `respond`: response word -/

@[simp] theorem respond_log (x : Response) : (s.respond x).pipe.log = s.pipe.log := rfl
@[simp] theorem respond_minw (x : Response) : (s.respond x).pipe.minw = s.pipe.minw := rfl
@[simp] theorem respond_est (x : Response) : (s.respond x).pipe.est = s.pipe.est := rfl
@[simp] theorem respond_shown (x : Response) : (s.respond x).pipe.shown = s.pipe.shown := rfl
@[simp] theorem respond_inbox (x : Response) : (s.respond x).ports.inbox = s.ports.inbox := rfl
@[simp] theorem respond_resetDone (x : Response) : (s.respond x).ports.resetDone = s.ports.resetDone := rfl
@[simp] theorem respond_display (x : Response) : (s.respond x).ports.display = s.ports.display := rfl
@[simp] theorem respond_diag (x : Response) : (s.respond x).ports.diag = s.ports.diag := rfl
@[simp] theorem respond_responses (x : Response) : (s.respond x).ports.responses = s.ports.responses ++ [x] := rfl
@[simp] theorem respond_shownReset (x : Response) : (s.respond x).shownReset = s.shownReset := rfl

/-! ### `setInbox`: write of the inbox -/

@[simp] theorem setInbox_log (x : List Input) : (s.setInbox x).pipe.log = s.pipe.log := rfl
@[simp] theorem setInbox_minw (x : List Input) : (s.setInbox x).pipe.minw = s.pipe.minw := rfl
@[simp] theorem setInbox_est (x : List Input) : (s.setInbox x).pipe.est = s.pipe.est := rfl
@[simp] theorem setInbox_shown (x : List Input) : (s.setInbox x).pipe.shown = s.pipe.shown := rfl
@[simp] theorem setInbox_inbox (x : List Input) : (s.setInbox x).ports.inbox = x := rfl
@[simp] theorem setInbox_resetDone (x : List Input) : (s.setInbox x).ports.resetDone = s.ports.resetDone := rfl
@[simp] theorem setInbox_display (x : List Input) : (s.setInbox x).ports.display = s.ports.display := rfl
@[simp] theorem setInbox_diag (x : List Input) : (s.setInbox x).ports.diag = s.ports.diag := rfl
@[simp] theorem setInbox_responses (x : List Input) : (s.setInbox x).ports.responses = s.ports.responses := rfl
@[simp] theorem setInbox_shownReset (x : List Input) : (s.setInbox x).shownReset = s.shownReset := rfl

/-! ### `resetEvent` (70_reset_and_hazards.md R160) -/

@[simp] theorem resetEvent_log : (resetEvent s).pipe.log = [] := rfl
@[simp] theorem resetEvent_minw : (resetEvent s).pipe.minw = [] := rfl
@[simp] theorem resetEvent_est : (resetEvent s).pipe.est = 0 := rfl
@[simp] theorem resetEvent_shown : (resetEvent s).pipe.shown = s.shownReset := rfl
@[simp] theorem resetEvent_inbox : (resetEvent s).ports.inbox = s.ports.inbox := rfl
@[simp] theorem resetEvent_resetDone : (resetEvent s).ports.resetDone = true := rfl
@[simp] theorem resetEvent_display : (resetEvent s).ports.display = [] := rfl
@[simp] theorem resetEvent_diag : (resetEvent s).ports.diag = [] := rfl
@[simp] theorem resetEvent_responses : (resetEvent s).ports.responses = [] := rfl
@[simp] theorem resetEvent_shownReset : (resetEvent s).shownReset = s.shownReset := rfl

@[simp] theorem atomLoad_eq : s.atomLoad = s.pipe.est := rfl

end Sys2Proof.Machine
end

