-- ==== Sys2Proof/Laws/Ops.lean ====
section
/-! SUPPORT. One lemma per shared operation that says what it does, for the provers to cite instead of unfolding it. -/

namespace Sys2Proof.Machine
open Sys2Proof

/-! ## FIFO operations -/

@[simp] theorem pushBack_eq {α : Type} (xs : List α) (x : α) : pushBack xs x = xs ++ [x] := rfl

@[simp] theorem popFront_eq {α : Type} (xs : List α) : popFront xs = xs.tail := rfl

theorem popFrontTimes_eq_drop {α : Type} (n : Nat) (xs : List α) : popFrontTimes n xs = xs.drop n := by
  induction n generalizing xs with
  | zero => rfl
  | succ n ih => simp [popFrontTimes, ih]

theorem logPush_eq (log : List Sample) (x : Sample) :
    logPush log x = (if log.length = 32 then log.tail else log) ++ [x] := by
  simp [logPush, isFull, Config.logCap]

theorem logPush_ne_nil (log : List Sample) (x : Sample) : logPush log x ≠ [] := by
  simp [logPush]

theorem minwTrim_eq (w : List Byte) : minwTrim w = if 4 < w.length then w.tail else w := by
  by_cases h : 4 < w.length <;> simp [minwTrim, isOver, Config.minwCap, h]

/-! ## Predicates in terms of numbers -/

theorem isFull_iff (log : List Sample) : isFull log = true ↔ log.length = 32 := by
  simp [isFull, Config.logCap]

theorem isLate_iff (e : Tick) : isLate e = true ↔ 250000 < e.toNat := by
  simp [isLate, Config.maxBurstDelay, BitVec.lt_def]

theorem isValid_iff (t : Tick) (e : Sample) : isValid t e = true ↔ (wsub32 t e.ts).toNat < 250000 := by
  simp [isValid, age, Config.maxBurstDelay, BitVec.lt_def]

theorem isValid_self (e : Sample) : isValid e.ts e = true := by
  simp [isValid_iff, wsub32]

theorem min8_le_left (a b : Byte) : min8 a b ≤ a := by
  unfold min8
  split
  · exact BitVec.le_refl a
  · next h => exact BitVec.le_of_lt (BitVec.not_le.mp h)

theorem min8_le_right (a b : Byte) : min8 a b ≤ b := by
  unfold min8
  split
  · assumption
  · exact BitVec.le_refl b

theorem min8_eq_or (a b : Byte) : min8 a b = a ∨ min8 a b = b := by
  unfold min8
  split <;> simp

/-! ## The scan (41_window_minimum.md R100) -/

/-- The loop takes the maximal run of valid entries at the head of what it is given, and nothing beyond it. -/
theorem scanFrom_eq (t : Tick) (es : List Sample) (m : Byte) (n : Nat) :
    scanFrom t es m n =
      ((es.takeWhile (isValid t)).foldl (fun a e => min8 a e.mag) m, n + (es.takeWhile (isValid t)).length) := by
  induction es generalizing m n with
  | nil => simp [scanFrom]
  | cons e es ih =>
    by_cases h : isValid t e = true
    · simp [scanFrom, h, ih, Nat.add_assoc, Nat.add_comm 1]
    · simp [scanFrom, h]

/-- The scan of a log whose newest entry is `newest`. -/
theorem minScan_append (older : List Sample) (newest : Sample) :
    minScan (older ++ [newest]) = scanFrom newest.ts (newest :: older.reverse) Config.defaultMag 0 := by
  simp [minScan]

/-! ## The operations -/

/-- Everything a burst close does. -/
theorem burstClose_eq (s : State) :
    burstClose s =
      { s with
        pipe :=
          { s.pipe with
            log := s.pipe.log.drop (minScan s.pipe.log).2
            minw := minwTrim (s.pipe.minw ++ [(minScan s.pipe.log).1])
            est := mean (s.pipe.minw ++ [(minScan s.pipe.log).1]) }
        ports :=
          { s.ports with
            diag := s.ports.diag ++
              [⟨mean (s.pipe.minw ++ [(minScan s.pipe.log).1]), Config.diagDelivered s.ports.diag.length⟩] } } := by
  rw [← popFrontTimes_eq_drop]
  rfl

/-- Everything step 3 of a tick does. -/
theorem showIndex_cases (i : Index) (s : State) :
    (s.pipe.shown = some i ∧ showIndex i s = s) ∨
      (s.pipe.shown ≠ some i ∧ showIndex i s = (s.emitDisplay (.load i)).setShown (some i)) := by
  by_cases h : s.pipe.shown = some i
  · exact .inl ⟨h, by simp [showIndex, isChanged, h]⟩
  · exact .inr ⟨h, by simp [showIndex, isChanged, h]⟩

/-- A BCN either only pushes, or pushes and closes one burst. -/
theorem beacon_cases (ts : Tick) (rssi : Byte) (s : State) :
    (burstTrigger (logPush s.pipe.log ⟨ts, magnitude rssi⟩) (elapsed (logPush s.pipe.log ⟨ts, magnitude rssi⟩) ts) = false ∧
        beacon ts rssi s = s.setLog (logPush s.pipe.log ⟨ts, magnitude rssi⟩)) ∨
      (burstTrigger (logPush s.pipe.log ⟨ts, magnitude rssi⟩) (elapsed (logPush s.pipe.log ⟨ts, magnitude rssi⟩) ts) = true ∧
        beacon ts rssi s = burstClose (s.setLog (logPush s.pipe.log ⟨ts, magnitude rssi⟩))) := by
  cases h : burstTrigger (logPush s.pipe.log ⟨ts, magnitude rssi⟩) (elapsed (logPush s.pipe.log ⟨ts, magnitude rssi⟩) ts)
  · exact .inl ⟨rfl, by simp [beacon, h]⟩
  · exact .inr ⟨rfl, by simp [beacon, h]⟩

/-- When a request is let through. -/
theorem violation_eq_none_iff (r : Request) (s : State) :
    violation r s = none ↔
      s.ports.resetDone = true ∧ r.port = portOf (decode r.word) ∧ r.agent = agentOf (portOf (decode r.word)) ∧
      (portOf (decode r.word) = .collector → r.collectorBusy = false) ∧
      (decode r.word = .dtick → r.displayLock = true) := by
  unfold violation
  by_cases h1 : s.ports.resetDone = true
  · by_cases h2 : r.port = portOf (decode r.word)
    · by_cases h3 : r.agent = agentOf (portOf (decode r.word))
      · cases hb : r.collectorBusy <;> cases hl : r.displayLock <;> cases hi : decode r.word <;>
          simp_all [portOf]
      · simp [h1, h2, h3]
    · simp [h1, h2]
  · simp [h1]

end Sys2Proof.Machine
end

