-- ==== Sys2Proof/Laws/Agents.lean ====
section
/-! SUPPORT. What a move of the three agents can do, said once. -/

namespace Sys2Proof.Machine
open Sys2Proof

/-- RESET acts at every point (00_scope.md R8). -/
theorem move_reset (c : Running) : move c .reset = some (Running.idle (resetEvent c.state)) := by
  simp [move, Running.admits, Move.agent, mayPreempt]

/-- DISPLAY acts at every point: only COLLECTOR can be in its way, and it may preempt COLLECTOR. -/
theorem admits_display (c : Running) : c.admits .display = true := by
  simp [Running.admits, mayPreempt]

/-- COLLECTOR acts when no DISPLAY operation is in progress. -/
theorem admits_collector_iff (c : Running) : c.admits .collector = true ↔ c.reader = .done := by
  simp [Running.admits, mayPreempt, Running.busy]

/-- Everything a move can be. -/
theorem move_cases {c d : Running} {m : Move} (h : move c m = some d) :
    (∃ ts rssi, m = .bcn ts rssi ∧ c.collector = .done ∧ c.reader = .done ∧ d = { c with collector := .magnitude ts rssi }) ∨
    (∃ ts, m = .bcnx ts ∧ c.collector = .done ∧ c.reader = .done ∧ d = c) ∨
    (m = .collector ∧ c.collector ≠ .done ∧ c.reader = .done ∧
      d = { c with collector := (substep c.collector c.state).1, state := (substep c.collector c.state).2 }) ∨
    (∃ o, m = .issue o ∧ c.reader = .done ∧ d = { c with reader := .load o }) ∨
    (m = .reader ∧ c.reader ≠ .done ∧
      d = { c with reader := (readerSubstep c.reader c.state).1, state := (readerSubstep c.reader c.state).2 }) ∨
    (m = .reset ∧ d = Running.idle (resetEvent c.state)) := by
  by_cases hc : c.collector = .done <;> by_cases hr : c.reader = .done <;> cases m <;>
    simp_all [move, Move.agent, Running.admits, mayPreempt, Running.busy]

end Sys2Proof.Machine
end

