-- ==== Sys2Proof/Laws/Decode.lean ====
section
/-! SUPPORT. The fields of a packed word and the byte container of a word, each said once. -/

namespace Sys2Proof

theorem packWord_port (op : BitVec 2) (rssi : Byte) (ts : Tick) :
    (packWord op rssi ts).getLsbD 41 = op.getLsbD 1 := by
  simp [packWord]

theorem packWord_present (op : BitVec 2) (rssi : Byte) (ts : Tick) :
    (packWord op rssi ts).getLsbD 40 = op.getLsbD 0 := by
  simp [packWord]

theorem packWord_rssiField (op : BitVec 2) (rssi : Byte) (ts : Tick) : rssiField (packWord op rssi ts) = rssi := by
  ext i hi
  have h1 : 32 + i < 42 := by omega
  have h2 : 32 + i < 40 := by omega
  simp [rssiField, packWord, h1, h2, hi]

theorem packWord_tsField (op : BitVec 2) (rssi : Byte) (ts : Tick) : tsField (packWord op rssi ts) = ts := by
  ext i hi
  have h1 : i < 42 := by omega
  have h2 : i < 40 := by omega
  simp [tsField, packWord, h1, h2, hi]

end Sys2Proof
end

