-- ==== Sys2Proof/Laws/PerInstr.lean ====
section
/-! SUPPORT. A statement made per operation: bit 41 of its canonical word is its port (30_encoding.md R63: "`TW[41]` is the
port: 0 = collector port, 1 = reader port"). -/

namespace Sys2Proof.Laws.PortBit
open Sys2Proof Sys2Proof.Machine

/-- R63, for the canonical word of the operation. -/
def Statement (i : Instr) : Prop := (encode i).getLsbD 41 = (portOf i == .reader)

theorem bcnx (ts : Tick) : Statement (.bcnx ts) :=
  (packWord_port 0 0 ts).trans rfl

theorem bcn (ts : Tick) (rssi : Byte) : Statement (.bcn ts rssi) :=
  (packWord_port 1 rssi ts).trans rfl

theorem dtick : Statement .dtick :=
  (packWord_port 2 0 0).trans rfl

theorem rdest : Statement .rdest :=
  (packWord_port 3 0 0).trans rfl

end Sys2Proof.Laws.PortBit
end

