-- ==== Sys2Proof/Laws/Step.lean ====
section
/-! SUPPORT. What a step can do, said once: every invariant of the machine is derived from this case split. -/

namespace Sys2Proof.Machine
open Sys2Proof

/-- Every operation answers with the next state of its own effect. -/
theorem exec_cases {i : Instr} {s t : State} (h : exec i s = .next t) :
    (∃ ts, i = .bcnx ts ∧ t = s) ∨ (∃ ts rssi, i = .bcn ts rssi ∧ t = beacon ts rssi s) ∨
      (i = .dtick ∧ t = displayTick s) ∨ (i = .rdest ∧ t = readEstimate s) := by
  cases i with
  | bcnx ts => exact .inl ⟨ts, rfl, (Host.Outcome.next.inj h).symm⟩
  | bcn ts rssi => exact .inr (.inl ⟨ts, rssi, rfl, (Host.Outcome.next.inj h).symm⟩)
  | dtick => exact .inr (.inr (.inl ⟨rfl, (Host.Outcome.next.inj h).symm⟩))
  | rdest => exact .inr (.inr (.inr ⟨rfl, (Host.Outcome.next.inj h).symm⟩))

/-- A step that answers a next state was idle, or took the reset event, or ran an operation let through. -/
theorem step_cases {s t : State} (h : step s = .next t) :
    (s.ports.inbox = [] ∧ t = s) ∨
      (∃ rest, s.ports.inbox = .reset :: rest ∧ t = resetEvent (s.setInbox rest)) ∨
      (∃ r rest, s.ports.inbox = .transaction r :: rest ∧ violation r s = none ∧
        exec (decode r.word) (s.setInbox rest) = .next t) := by
  unfold step at h
  split at h
  · next e => exact .inl ⟨e, (Host.Outcome.next.inj h).symm⟩
  · next rest e => exact .inr (.inl ⟨rest, e, (Host.Outcome.next.inj h).symm⟩)
  · next r rest e =>
    split at h
    · cases h
    · next hv => exact .inr (.inr ⟨r, rest, e, hv, h⟩)

end Sys2Proof.Machine
end

