-- ==== Sys2Proof/Tests/Slice0.lean ====
section
/-! SUPPORT. The model's own tests: the words of the spec, its worked examples (95_test_vectors.md), a smoke test of each
well-formedness check, and for every statement that has hypotheses a state and operands that meet them all. -/

namespace Sys2Proof.Tests
open Sys2Proof Sys2Proof.Machine Sys2Proof.Safety

/-- A small state with the given items, reset done, no outputs yet. -/
def mk (log : List Sample) (minw : List Byte) (est : Byte) (shown : Option Index) (inbox : List Input := []) : State :=
  { pipe := { log := log, minw := minw, est := est, shown := shown }, ports := Ports.reset inbox, shownReset := none }

/-- The next state, where there is one. -/
def nextOf (o : Host.Outcome State Fault Refusal) : Option State :=
  match o with
  | .next s => some s
  | .fault _ => none
  | .refused _ => none

/-- The refusal, where there is one. -/
def refusalOf (o : Host.Outcome State Fault Refusal) : Option Refusal :=
  match o with
  | .next _ => none
  | .fault _ => none
  | .refused r => some r

/-- A BCN's request that obeys every duty. -/
def good : Request :=
  { agent := .collector, port := .collector, word := 0x1D3000927C0#42, displayLock := false, collectorBusy := false }

/-- A DTICK's request that obeys every duty. -/
def tick : Request :=
  { agent := .display, port := .reader, word := 0x20000000000#42, displayLock := true, collectorBusy := true }

/-! ## Decoding: words written out from 30_encoding.md R61, op ++ rssi ++ ts -/

/-- `BCN 600000, -45` (R69): op 01, rssi 1101_0011, ts 0x000927C0. -/
theorem test_decode_bcn : decode (0b01#2 ++ 0b11010011#8 ++ 0b00000000000010010010011111000000#32) = .bcn 600000 0xD3 := by
  decide

/-- `BCNX 1234` (R69), and `0x0FFFFFFFFFF` is also `BCNX` (V21). -/
theorem test_decode_bcnx : decode (0b00#2 ++ 0b00000000#8 ++ 0b00000000000000000000010011010010#32) = .bcnx 1234 ∧
    decode 0x0FFFFFFFFFF#42 = .bcnx 0xFFFFFFFF := by decide

/-- `DTICK`, canonical and not (V22). -/
theorem test_decode_dtick : decode (0b10#2 ++ 0#40) = .dtick ∧ decode 0x2ABCDEF0123#42 = .dtick := by decide

/-- `RDEST`, canonical and not (V22). -/
theorem test_decode_rdest : decode (0b11#2 ++ 0#40) = .rdest ∧ decode 0x3FFFFFFFFFF#42 = .rdest := by decide

/-- The container of 92 D8: "`0x1D3000927C0` is the bytes `C0 27 09 00 D3 01`" (95_test_vectors.md). -/
theorem test_container : wordBytes 0x1D3000927C0#42 = [0xC0, 0x27, 0x09, 0x00, 0xD3, 0x01] ∧
    (decodeBytes [0xC0, 0x27, 0x09, 0x00, 0xD3, 0x01]).toOption = some (.bcn 600000 0xD3, []) := by decide

/-- Five bytes are no word, and bits 47:42 must be zero. -/
theorem test_container_rejected : (decodeBytes [0, 0, 0, 0, 0]).toOption = none ∧
    (decodeBytes [0, 0, 0, 0, 0, 0x04]).toOption = none := by decide

/-- The four rows of the opcode table, as its `match` gives them. -/
theorem test_table_words : decodeTableWord 48 0x00000000000 = some (.bcnx 0) ∧
    decodeTableWord 48 0x10000000000 = some (.bcn 0 0) ∧ decodeTableWord 48 0x20000000000 = some .dtick ∧
    decodeTableWord 48 0x30000000000 = some .rdest := by decide

/-- R68: the lines of program P1, with a comment and a hexadecimal number. -/
theorem test_parse_lines :
    parseLine ['B', 'C', 'N', ' ', ' ', '0', 'x', '1', 'F', ',', ' ', '-', '4', '7', ' ', ';', 'x'] = some (.bcn 31 (-47)) ∧
    parseLine ['B', 'C', 'N', 'X', ' ', '5', '0'] = some (.bcnx 50) ∧
    parseLine ['D', 'T', 'I', 'C', 'K', ' '] = some .dtick ∧ parseLine ['R', 'S', 'T'] = some .rst ∧
    parseLine ['B', 'C', 'N', ' ', '5'] = none := by decide

/-! ## Well-formedness: an ill-formed term for each check -/

theorem test_illformed_bcn_ts : (Line.bcn 4294967296 0).wellFormed = false := by decide
theorem test_illformed_bcnx_ts : (Line.bcnx 4294967296).wellFormed = false := by decide
theorem test_illformed_rssi_low : (Line.bcn 0 (-129)).wellFormed = false := by decide
theorem test_illformed_rssi_high : (Line.bcn 0 128).wellFormed = false := by decide
theorem test_wellformed_edges : (Line.bcn 4294967295 (-128)).wellFormed = true ∧ (Line.bcn 0 127).wellFormed = true ∧
    (Instr.bcn 0xFFFFFFFF 0x80).wellFormed = true := by decide

/-! ## The operations -/

/-- V8: the magnitude at 0, 42, -42, 43, -43, -70, 127, -127, -128. -/
theorem test_magnitude : [0x00, 0x2A, 0xD6, 0x2B, 0xD5, 0xBA, 0x7F, 0x81, 0x80].map magnitude =
    [0, 0, 0, 1, 1, 28, 85, 85, 86] := by decide

/-- V10 (age 250000 is not valid, 249999 is), V17 (a valid entry hidden behind an invalid one), V18 (a) on 32 entries. -/
theorem test_scan_and_eviction :
    minScan [⟨0, 1⟩, ⟨100000, 2⟩, ⟨349999, 18⟩] = (2, 2) ∧ minScan [⟨0, 1⟩, ⟨100000, 2⟩, ⟨350000, 18⟩] = (18, 1) ∧
    minScan [⟨500000, 0⟩, ⟨3000, 4⟩, ⟨600000, 1⟩] = (1, 1) ∧
    (logPush ((List.range 32).map fun k => ⟨BitVec.ofNat 32 k, BitVec.ofNat 8 k⟩) ⟨99, 7⟩).head? = some ⟨1, 1⟩ := by decide

/-- V21: BCNX changes nothing although a BCN at that timestamp would close a burst. -/
theorem test_bcnx : nextOf (exec (.bcnx 999999) (mk [⟨0, 5⟩] [] 0 none)) = some (mk [⟨0, 5⟩] [] 0 none) := by decide

/-- V12 step 4: `BCN 700000, -60` drains the two OLDEST, one of them counted twice. -/
theorem test_bcn_drains_the_oldest :
    (nextOf (exec (.bcn 700000 0xC4) (mk [⟨100000, 8⟩, ⟨600000, 3⟩] [3] 3 none))).map State.pipe =
      some { log := [⟨700000, 18⟩], minw := [3, 3], est := 3, shown := none } := by decide

/-- P3 step 7 (V5): `BCN 1500000, -92` publishes 30, the mean before the trim. -/
theorem test_bcn_means_before_the_trim :
    (nextOf (exec (.bcn 1500000 0xA4) (mk [⟨1200000, 40⟩] [10, 20, 30, 40] 25 none))).map State.pipe =
      some { log := [⟨1500000, 50⟩], minw := [20, 30, 40, 50], est := 30, shown := none } := by decide

/-- V20, `EST = 30`, `SHOWN = Some(15)`: `SHOW(26)`, `MUX`, response `0x7A`. -/
theorem test_dtick_loads :
    (nextOf (exec .dtick (mk [] [] 30 (some 15)))).map (fun t => (t.pipe.shown, t.ports.display, t.ports.responses)) =
      some (some 26, [.load 26, .mux], [.dtick 0x7A]) := by decide

/-- V20, `EST = 86`, `SHOWN = Some(26)`: `MUX` only, response `0x5A`. -/
theorem test_dtick_does_not_load :
    (nextOf (exec .dtick (mk [] [] 86 (some 26)))).map (fun t => (t.pipe.shown, t.ports.display, t.ports.responses)) =
      some (some 26, [.mux], [.dtick 0x5A]) := by decide

/-- P1 step 7: `RDEST` returns `0x03`. -/
theorem test_rdest : (nextOf (exec .rdest (mk [] [3] 3 none))).map (fun t => t.ports.responses) = some [.rdest 0x03] := by
  decide

/-- The first step after reset runs the word placed where the machine takes its next transaction. -/
theorem test_first_step : (nextOf (step (State.reset.withFetchWord 48 0x1D100000000))).map State.pipe =
    some { log := [⟨0, 5⟩], minw := [], est := 0, shown := none } := by decide

/-- 10_state.md R25: the valid bit, and index 26 in bits 4:0. -/
theorem test_shown_layout : shownValid (some 26) = true ∧ shownIndexBits (some 26) = some 0b11010 ∧ shownValid none = false ∧
    shownIndexBits none = none := by decide

/-! ## Witnesses: the hypotheses of each statement are met -/

/-- EveryWordSelectsExactlyOneRow, IgnoredBitsHaveNoEffect: a word of each `op`, and two that differ in ignored bits. -/
theorem witness_op_values : (0x0FFFFFFFFFF#42).extractLsb' 40 2 = 0 ∧ (0x1FFFFFFFFFF#42).extractLsb' 40 2 = 1 ∧
    (0x2ABCDEF0123#42).extractLsb' 40 2 = 2 ∧ (0x3FFFFFFFFFF#42).extractLsb' 40 2 = 3 ∧
    (0x20000000000#42).extractLsb' 40 2 = (0x2ABCDEF0123#42).extractLsb' 40 2 := by decide

/-- OperandsAreAssembledFromTheirFields: both values of `TW[40]` and both signs. -/
theorem witness_operand_words : (0x0FFFFFFFFFF#42).getLsbD 41 = false ∧ (0x0FFFFFFFFFF#42).getLsbD 40 = false ∧
    (0x180FFFFFFFF#42).getLsbD 41 = false ∧ (0x180FFFFFFFF#42).getLsbD 40 = true ∧ (0x180FFFFFFFF#42).getLsbD 39 = true ∧
    (0x17F00000000#42).getLsbD 39 = false := by decide

/-- LinesAssembleToTheirNumbers: the ends of both ranges. -/
theorem witness_line_edges : (4294967295 : Nat) ≤ 4294967295 ∧ (-128 : Int) ≤ -128 ∧ (127 : Int) ≤ 127 ∧
    (Line.bcn 4294967296 128).wellFormed = false ∧ Line.assemble (.bcn 0 0) = some (.bcn 0 0) := by decide

/-- BcnCompletesWithItsEffect, CollectorFrame, NoBurstNoEffectBeyondTheAppend: the trigger on both sides of 250000 (V9), and
by fullness at 32. -/
theorem witness_trigger_edges :
    burstTrigger (logPush [⟨1000, 8⟩] ⟨251000, 18⟩) (elapsed (logPush [⟨1000, 8⟩] ⟨251000, 18⟩) 251000) = false ∧
    burstTrigger (logPush [⟨1000, 8⟩] ⟨251001, 18⟩) (elapsed (logPush [⟨1000, 8⟩] ⟨251001, 18⟩) 251001) = true ∧
    burstTrigger (logPush (List.replicate 31 ⟨0, 8⟩) ⟨0, 18⟩) 0 = true ∧ minScan [⟨1000, 8⟩, ⟨251001, 18⟩] = (18, 1) := by
  decide

/-- CollectorFrame, ReaderFrame, ResponseWords, SecondTickOnlyMultiplexes, CollectorIsBlindToTheShownIndex,
DiagDeliveryDecidesNothing, SubstepsMakeUpTheBeacon: each operation answers a next state. -/
theorem witness_next_states (s : State) : exec (.bcnx 0) s = .next s ∧ exec (.bcn 5 0x80) s = .next (beacon 5 0x80 s) ∧
    exec .dtick s = .next (displayTick s) ∧ exec .rdest s = .next (readEstimate s) := ⟨rfl, rfl, rfl, rfl⟩

/-- MagnitudeSaturates: two operands of opposite sign. -/
theorem witness_opposite_signs : rssiValue 0x81 = -rssiValue 0x7F ∧ rssiValue 0xD6 = -42 ∧ rssiValue 0x80 = -128 := by decide

/-- LogPushEvictsOnlyTheOldest, ElapsedIsTakenFromTheOldestModulo: an empty log and a full one. -/
theorem witness_log_lengths : ([] : List Sample).length ≤ 32 ∧ (List.replicate 32 (⟨0, 0⟩ : Sample)).length = 32 := by decide

/-- ScanFindsTheNewestValidRun: a scan that stops inside the log (V6), and one that takes all of it. -/
theorem witness_scans : [(⟨0, 5⟩ : Sample), ⟨100000, 8⟩, ⟨600000, 3⟩].getLast? = some ⟨600000, 3⟩ ∧
    minScan [⟨0, 5⟩, ⟨100000, 8⟩, ⟨600000, 3⟩] = (3, 1) ∧
    [(⟨0, 5⟩ : Sample), ⟨100000, 8⟩, ⟨600000, 3⟩].reverse[1]? = some ⟨100000, 8⟩ ∧ minScan [⟨7, 5⟩] = (5, 1) := by decide

/-- TimeOrderedScanIsTheTrueMinimum: the log of V14 step 3, whose clock wraps inside it. -/
theorem witness_time_ordered :
    TimeOrdered [⟨0xFFFF0000, 8⟩, ⟨0x10000, 6⟩, ⟨0x50000, 13⟩] [0xFFFF0000, 0x100010000, 0x100050000] ∧
    [(⟨0xFFFF0000, 8⟩ : Sample), ⟨0x10000, 6⟩, ⟨0x50000, 13⟩].getLast? = some ⟨0x50000, 13⟩ ∧
    minScan [⟨0xFFFF0000, 8⟩, ⟨0x10000, 6⟩, ⟨0x50000, 13⟩] = (13, 1) := by decide

/-- DrainRemovesTheOldestEntries: none and all. -/
theorem witness_drain_counts : 0 ≤ [(⟨0, 5⟩ : Sample)].length ∧ 1 ≤ [(⟨0, 5⟩ : Sample)].length := by decide

/-- DenseFullBurstEmptiesTheLog: 31 entries at the last valid age. -/
theorem witness_dense_log : (mk (List.replicate 31 ⟨1, 8⟩) [] 0 none).pipe.log.length = 31 ∧
    ∀ e ∈ (mk (List.replicate 31 ⟨1, 8⟩) [] 0 none).pipe.log, (wsub32 250000 e.ts).toNat < 250000 := by decide

/-- MeanIsTheFloorOfTheExactQuotient, WindowPushThenTrim: windows of one entry, of four and of five. -/
theorem witness_windows : ([7] : List Byte) ≠ [] ∧ ([1, 2, 3, 4] : List Byte).length ≤ 4 ∧
    4 < ([1, 2, 3, 4, 5] : List Byte).length := by decide

/-- DtickCompletesWithItsEffect: the clamped index around 26, and both cases of SHOWN. -/
theorem witness_tick_indices : ((25 : Index).val = min 26 (mk [] [] 25 none).pipe.est.toNat) ∧
    ((26 : Index).val = min 26 (mk [] [] 26 none).pipe.est.toNat) ∧
    ((26 : Index).val = min 26 (mk [] [] 255 (some 26)).pipe.est.toNat) ∧ (mk [] [] 255 (some 26)).pipe.shown = some 26 := by
  decide

/-- ClampIsTheSmallerOfTwentySixAndTheEstimate: where its clauses meet. -/
theorem witness_clamp_edges : (26 : Byte).toNat ≤ 26 ∧ 26 ≤ (26 : Byte).toNat ∧ 26 ≤ (27 : Byte).toNat := by decide

/-- EveryStepKeepsTheReachableInvariant, LoadsSeeTheLatestStore, EveryStepKeepsTheStorageBounds: a state that meets the
invariants and has a next step. -/
theorem witness_invariants : ReachInv (mk [⟨0, 86⟩] [] 0 none [.transaction good]) ∧
    StorageBounds (mk (List.replicate 32 ⟨0, 255⟩) [1, 2, 3, 4] 9 none) ∧
    (nextOf (step (mk [⟨0, 86⟩] [] 0 none [.transaction good]))).isSome = true := by decide

/-- StepRunsTheDecodedOperation, ProtocolViolationsAreRefused: requests that conform, on either port. -/
theorem witness_conforming : Conforms good (mk [] [] 0 none) ∧ Conforms tick (mk [] [] 0 none) ∧
    decode good.word = .bcn 600000 0xD3 := by decide

/-- ProtocolViolationsAreRefused: each violation of R141 is refused under its name. -/
theorem witness_violations :
    refusalOf (step { mk [] [] 0 none [.transaction good] with
      ports := { (mk [] [] 0 none [.transaction good]).ports with resetDone := false } }) = some .beforeReset ∧
    refusalOf (step (mk [] [] 0 none [.transaction { good with port := .reader }])) = some .wrongPort ∧
    refusalOf (step (mk [] [] 0 none [.transaction { good with agent := .display }])) = some .wrongContext ∧
    refusalOf (step (mk [] [] 0 none [.transaction { good with collectorBusy := true }])) = some .reentrantCollector ∧
    refusalOf (step (mk [] [] 0 none [.transaction { tick with displayLock := false }])) = some .displayUnlocked := by decide

/-- ProtocolViolationsAreRefused: requests that break two duties get the first name of log entry 5's order. -/
theorem witness_double_violations :
    refusalOf (step { mk [] [] 0 none [.transaction { good with port := .reader }] with
      ports := { (mk [] [] 0 none [.transaction { good with port := .reader }]).ports with resetDone := false } }) =
        some .beforeReset ∧
    refusalOf (step (mk [] [] 0 none [.transaction { good with port := .reader, agent := .display }])) = some .wrongPort ∧
    refusalOf (step (mk [] [] 0 none [.transaction { good with agent := .reset, collectorBusy := true }])) =
      some .wrongContext := by decide

/-- IdleAndResetSteps, NothingSurvivesReset, OnlyBeaconsMoveThePipeline, OnlyTicksMoveTheShownIndex, StoreOrderOnlyGrows: an
idle step, two different states before a reset event, a BCN and a DTICK. -/
theorem witness_steps : (mk [] [] 0 none []).ports.inbox = [] ∧ (mk [⟨0, 5⟩] [3] 3 (some 1) [.reset]).ports.inbox = [.reset] ∧
    (mk [] [] 0 none [.reset]).ports.inbox = [.reset] ∧
    (nextOf (step (mk [⟨0, 5⟩] [3] 3 (some 1) [.reset]))).map State.pipe = some (Pipe.reset none) ∧
    (nextOf (step (mk [⟨0, 5⟩] [] 0 none [.transaction good]))).map (fun t => t.pipe.est) = some 3 ∧
    (nextOf (step (mk [] [] 7 none [.transaction tick]))).map (fun t => t.pipe.shown) = some (some 7) := by decide

/-- PreemptedBeaconIsSerial, EveryBeaconEnds: a burst preempted before its first sub-step, before its store and after it. -/
theorem witness_preempted : ∃ t, runPreempted [[.dtick], [], [], [], [], [], [], [], [], [.rdest, .dtick], [.rdest]]
    (.magnitude 600000 0xD3) (mk [⟨0, 5⟩] [] 0 none) = (.done, t) := ⟨_, rfl⟩

/-- StorageBoundsBetweenSubsteps: five entries where they may stand, four elsewhere. -/
theorem witness_stage_bounds : StageBounds .mean (mk [] [1, 2, 3, 4, 5] 0 none) ∧
    StageBounds (.minwPush 7) (mk (List.replicate 32 ⟨0, 0⟩) [1, 2, 3, 4] 0 none) := by decide

/-- TimestampsAlias: V19's distance of 2^32 + 5000 ticks, and the shortest and the longest step back of the second clause. -/
theorem witness_ticks : (100 : Nat) ≤ 4294972396 ∧ (99 : Nat) < 100 ∧ 100 - 99 < 2 ^ 32 - 250000 ∧
    (0 : Nat) < 2 ^ 32 - 250001 ∧ 2 ^ 32 - 250001 - 0 < 2 ^ 32 - 250000 := by decide

/-- ResetPreemptsEveryOperation: a DTICK that preempts a BCN in its scan, cut by a reset before its MUX. -/
theorem witness_reset_preempts : ∃ c, runMoves [.bcn 600000 0xD3, .collector, .collector, .collector, .collector, .issue .dtick,
    .reader, .reader, .reader] (Running.idle (mk [⟨0, 5⟩] [] 0 none)) = some c ∧ c.collector = .minScan ∧
    c.reader = .mux true 0 := ⟨_, rfl, rfl, rfl⟩

/-- InterleavedAgentsAreSerial: an RDEST inside a BCN that closes a burst, then a BCNX. -/
theorem witness_interleaved : Move.reset ∉ [Move.bcn 600000 0xD3, .collector, .issue .rdest, .reader, .reader] ++
      List.replicate 10 .collector ++ [.bcnx 7] ∧
    ∃ t, runMoves ([.bcn 600000 0xD3, .collector, .issue .rdest, .reader, .reader] ++ List.replicate 10 .collector ++ [.bcnx 7])
      (Running.idle (mk [⟨0, 5⟩] [] 0 none)) = some (Running.idle t) := ⟨by decide, _, rfl⟩

/-- PriorityOrdersTheAgents: each of its conditions, alone and together. -/
theorem witness_running (s : State) : (Running.idle s).reader = .done ∧
    ({ Running.idle s with reader := .load .dtick } : Running).reader ≠ .done ∧
    ({ Running.idle s with collector := .mean } : Running).collector ≠ .done := by
  refine ⟨rfl, ?_, ?_⟩ <;> exact fun h => nomatch h

/-- ParsedTextNamesItsNumbers: numerals of one digit and of ten, blanks of both kinds, and each kind of tail. -/
theorem witness_numerals :
    ([7] : List (Fin 10)) ≠ [] ∧ decText [4, 2, 9, 4, 9, 6, 7, 2, 9, 5] =
      ['4', '2', '9', '4', '9', '6', '7', '2', '9', '5'] ∧ decValue [4, 2, 9, 4, 9, 6, 7, 2, 9, 5] = 4294967295 ∧
    hexText false [1, 15] = ['1', 'f'] ∧ hexText true [1, 15] = ['1', 'F'] ∧ hexValue [1, 15] = 31 ∧
    ([' '] : List Char) ≠ [] ∧ (∀ c ∈ [' '] ++ ['\t', ' '] ++ [], isBlank c = true) ∧
    (([] : List Char) = [] ∨ ∃ comment, ([] : List Char) = ';' :: comment) ∧
    ([';', 'P'] = [] ∨ ∃ comment, [';', 'P'] = ';' :: comment) := by
  refine ⟨by decide, by decide, by decide, by decide, by decide, by decide, by decide, by simp [isBlank],
    .inl rfl, .inr ⟨['P'], rfl⟩⟩

/-- The line `BCN 0, -47` of program P1. -/
theorem test_parse_p1 : parseLine ['B', 'C', 'N', ' ', '0', ',', ' ', '-', '4', '7'] = some (.bcn 0 (-47)) := by decide

end Sys2Proof.Tests
end

section
/-! The encoding of the transaction word (30_encoding.md R61 to R69): what a word's `op` field `TW[41:40]` decides, the
word as a number, and the statements of the family. -/

namespace Sys2Proof
open Sys2Proof.Machine

/-! ## The fields of a word (R61) -/

theorem getLsbD_forty_one (w : TWord) : w.getLsbD 41 = (w.extractLsb' 40 2).getLsbD 1 := by simp

theorem getLsbD_forty (w : TWord) : w.getLsbD 40 = (w.extractLsb' 40 2).getLsbD 0 := by simp

theorem tsField_toNat (w : TWord) : (tsField w).toNat = w.toNat % 2 ^ 32 := by
  simp [tsField]

theorem rssiField_toNat (w : TWord) : (rssiField w).toNat = w.toNat / 2 ^ 32 % 256 := by
  simp [rssiField, Nat.shiftRight_eq_div_pow]

/-- The sign bit of the operand is `TW[39]` (R62). -/
theorem rssiField_sign (w : TWord) : (rssiField w).getLsbD 7 = w.getLsbD 39 := by
  simp [rssiField]

/-! ## The packed word -/

theorem packWord_toNat (op : BitVec 2) (rssi : Byte) (ts : Tick) :
    (packWord op rssi ts).toNat = op.toNat * 2 ^ 40 + rssi.toNat * 2 ^ 32 + ts.toNat := by
  have hop : op.toNat < 2 ^ 2 := op.isLt
  have hrssi : rssi.toNat < 2 ^ 8 := rssi.isLt
  have hts : ts.toNat < 2 ^ 32 := ts.isLt
  have hlow : rssi.toNat <<< 32 + ts.toNat < 2 ^ 40 := by rw [Nat.shiftLeft_eq]; omega
  calc (packWord op rssi ts).toNat
      = op.toNat <<< 40 ||| (rssi.toNat <<< 32 ||| ts.toNat) := by
        simp (disch := omega) only [packWord, BitVec.toNat_or, BitVec.toNat_shiftLeft, BitVec.toNat_setWidth,
          Nat.shiftLeft_eq, Nat.mod_eq_of_lt, Nat.or_assoc]
    _ = op.toNat <<< 40 + (rssi.toNat <<< 32 + ts.toNat) := by
        rw [← Nat.shiftLeft_add_eq_or_of_lt hts, ← Nat.shiftLeft_add_eq_or_of_lt hlow]
    _ = op.toNat * 2 ^ 40 + rssi.toNat * 2 ^ 32 + ts.toNat := by
        rw [Nat.shiftLeft_eq, Nat.shiftLeft_eq, Nat.add_assoc]

/-- No bit of a word stands outside its three fields. -/
theorem packWord_fields (w : TWord) : packWord (w.extractLsb' 40 2) (rssiField w) (tsField w) = w := by
  apply BitVec.eq_of_toNat_eq
  have hw : w.toNat < 2 ^ 42 := w.isLt
  rw [packWord_toNat, rssiField_toNat, tsField_toNat, BitVec.extractLsb'_toNat, Nat.shiftRight_eq_div_pow]
  omega

theorem packWord_op (op : BitVec 2) (rssi : Byte) (ts : Tick) : (packWord op rssi ts).extractLsb' 40 2 = op := by
  apply BitVec.eq_of_toNat_eq
  have hop : op.toNat < 2 ^ 2 := op.isLt
  have hrssi : rssi.toNat < 2 ^ 8 := rssi.isLt
  have hts : ts.toNat < 2 ^ 32 := ts.isLt
  rw [BitVec.extractLsb'_toNat, packWord_toNat, Nat.shiftRight_eq_div_pow]
  omega

/-! ## Decoding by the `op` field (R63, R64) -/

theorem op_cases (op : BitVec 2) : op = 0 ∨ op = 1 ∨ op = 2 ∨ op = 3 := by
  decide +revert

section
variable {w : TWord}

theorem decode_of_op_zero (h : w.extractLsb' 40 2 = 0) : decode w = .bcnx (tsField w) := by
  rw [decode, getLsbD_forty_one, getLsbD_forty, h]; rfl

theorem decode_of_op_one (h : w.extractLsb' 40 2 = 1) : decode w = .bcn (tsField w) (rssiField w) := by
  rw [decode, getLsbD_forty_one, getLsbD_forty, h]; rfl

theorem decode_of_op_two (h : w.extractLsb' 40 2 = 2) : decode w = .dtick := by
  rw [decode, getLsbD_forty_one, getLsbD_forty, h]; rfl

theorem decode_of_op_three (h : w.extractLsb' 40 2 = 3) : decode w = .rdest := by
  rw [decode, getLsbD_forty_one, getLsbD_forty, h]; rfl
end

theorem decode_encode (i : Instr) : decode (encode i) = i := by
  cases i with
  | bcnx ts => rw [encode, decode_of_op_zero (packWord_op ..), packWord_tsField]
  | bcn ts rssi => rw [encode, decode_of_op_one (packWord_op ..), packWord_tsField, packWord_rssiField]
  | dtick => exact decode_of_op_two (packWord_op ..)
  | rdest => exact decode_of_op_three (packWord_op ..)

theorem encode_dtick_toNat : (encode .dtick).toNat = 0x20000000000 := by decide

theorem encode_rdest_toNat : (encode .rdest).toNat = 0x30000000000 := by decide

/-- The mnemonic is a matter of the `op` field alone. -/
theorem decode_mnemonic_congr {w w' : TWord} (h : w.extractLsb' 40 2 = w'.extractLsb' 40 2) :
    (decode w).mnemonic = (decode w').mnemonic := by
  obtain h0 | h1 | h2 | h3 := op_cases (w.extractLsb' 40 2)
  · rw [decode_of_op_zero h0, decode_of_op_zero (h ▸ h0)]; rfl
  · rw [decode_of_op_one h1, decode_of_op_one (h ▸ h1)]; rfl
  · rw [decode_of_op_two h2, decode_of_op_two (h ▸ h2)]
  · rw [decode_of_op_three h3, decode_of_op_three (h ▸ h3)]

theorem portOf_decode (w : TWord) : portOf (decode w) = if w.getLsbD 41 then .reader else .collector := by
  cases h41 : w.getLsbD 41 <;> cases h40 : w.getLsbD 40 <;> rw [decode, h41, h40] <;> rfl

/-! ## The opcode map (R64) -/

/-- The mask of every row keeps the `op` field and clears the operands. -/
theorem and_opMask (w : TWord) : w &&& 0x30000000000#42 = packWord (w.extractLsb' 40 2) 0 0 := by
  have hmask : 0x30000000000#42 = (BitVec.allOnes 2).setWidth 42 <<< 40 := by decide
  rw [hmask]
  ext i hi
  by_cases hlow : i < 40
  · simp only [BitVec.getElem_and, BitVec.getElem_shiftLeft, packWord, BitVec.getElem_or, hlow]
    simp
  · have hop : i - 40 < 2 := by omega
    have hbit : 40 + (i - 40) = i := by omega
    simp only [BitVec.getElem_and, BitVec.getElem_shiftLeft, BitVec.getElem_setWidth, BitVec.getLsbD_allOnes,
      BitVec.getLsbD_extractLsb', packWord, BitVec.getElem_or, hlow, hop, hbit]
    simp [hi]

theorem opRows_mask {r : OpRow} (h : r ∈ opRows) : r.mask = 0x30000000000#42 :=
  (by decide : ∀ r ∈ opRows, r.mask = 0x30000000000#42) r h

theorem selects_iff {r : OpRow} (h : r ∈ opRows) (w : TWord) :
    r.selects w = true ↔ r.pattern = packWord (w.extractLsb' 40 2) 0 0 := by
  rw [OpRow.selects, opRows_mask h, and_opMask, beq_iff_eq, eq_comm]

/-- Each value of `op` has one row, whose pattern decodes to the row's own operation. -/
theorem opRows_of_op (op : BitVec 2) :
    ∃ r ∈ opRows, r.pattern = packWord op 0 0 ∧ (∀ r' ∈ opRows, r'.pattern = packWord op 0 0 → r' = r) ∧
      (decode (packWord op 0 0)).mnemonic = r.mnemonic := by
  decide +revert

theorem exists_unique_row (w : TWord) :
    ∃ r ∈ opRows, r.selects w = true ∧ (∀ r' ∈ opRows, r'.selects w = true → r' = r) ∧
      (decode w).mnemonic = r.mnemonic := by
  obtain ⟨r, hr, hpattern, huniq, hname⟩ := opRows_of_op (w.extractLsb' 40 2)
  refine ⟨r, hr, (selects_iff hr w).2 hpattern, fun r' hr' hsel => huniq r' hr' ((selects_iff hr' w).1 hsel), ?_⟩
  rw [← hname]
  exact decode_mnemonic_congr (packWord_op ..).symm

/-- Settles O2: the rows' masks keep the `op` field alone, and each of its four values has one row. -/
theorem everyWordSelectsExactlyOneRow : Obligations.EveryWordSelectsExactlyOneRow :=
  ⟨by decide, fun w => ⟨exists_unique_row w, portOf_decode w, fun h => ⟨_, decode_of_op_zero h⟩,
    decode_of_op_one, decode_of_op_two, decode_of_op_three⟩⟩

/-! ## Ignored bits (R65) -/

/-- Only BCN reads operands of the word: BCNX decodes to its `ts` but has no effect (R80). -/
theorem exec_decode_congr {w w' : TWord} (hop : w.extractLsb' 40 2 = w'.extractLsb' 40 2)
    (hbcn : w.extractLsb' 40 2 = 1 → w = w') (s : State) : exec (decode w) s = exec (decode w') s := by
  obtain h0 | h1 | h2 | h3 := op_cases (w.extractLsb' 40 2)
  · rw [decode_of_op_zero h0, decode_of_op_zero (hop ▸ h0)]; rfl
  · rw [hbcn h1]
  · rw [decode_of_op_two h2, decode_of_op_two (hop ▸ h2)]
  · rw [decode_of_op_three h3, decode_of_op_three (hop ▸ h3)]

theorem encode_decode_toNat (w : TWord) :
    (encode (decode w)).toNat =
      if w.extractLsb' 40 2 = 0 then w.toNat % 2 ^ 32
      else if w.extractLsb' 40 2 = 1 then w.toNat
      else if w.extractLsb' 40 2 = 2 then 0x20000000000 else 0x30000000000 := by
  obtain h0 | h1 | h2 | h3 := op_cases (w.extractLsb' 40 2)
  · rw [if_pos h0, decode_of_op_zero h0, encode, packWord_toNat, tsField_toNat]
    simp
  · have hw : encode (decode w) = w := by
      rw [decode_of_op_one h1, encode, ← h1, packWord_fields]
    simp [h1, hw]
  · rw [decode_of_op_two h2, encode_dtick_toNat, h2]; rfl
  · rw [decode_of_op_three h3, encode_rdest_toNat, h3]; rfl

/-- Settles O3, by the four values of the `op` field. -/
theorem ignoredBitsHaveNoEffect : Obligations.IgnoredBitsHaveNoEffect :=
  ⟨fun _ _ hop hbcn => ⟨decode_mnemonic_congr hop, exec_decode_congr hop hbcn⟩, encode_decode_toNat⟩

/-! ## The encoding function (R69) -/

/-- The value of an operand, taken modulo 256, is its field. -/
theorem rssiValue_emod (r : Byte) : (rssiValue r % 256).toNat = r.toNat := by
  have hr : r.toNat < 256 := r.isLt
  unfold rssiValue
  split <;> omega

theorem encode_bcn_toNat (ts : Tick) (rssi : Byte) :
    (encode (.bcn ts rssi)).toNat = 0x10000000000 + (rssiValue rssi % 256).toNat * 2 ^ 32 + ts.toNat := by
  rw [encode, packWord_toNat, rssiValue_emod]; rfl

theorem encode_bcnx_toNat (ts : Tick) : (encode (.bcnx ts)).toNat = ts.toNat := by
  simp [encode, packWord_toNat]

/-- Settles O4: the packed word is the sum of its fields' weights. -/
theorem encodingFollowsTheFormula : Obligations.EncodingFollowsTheFormula :=
  ⟨encode_bcn_toNat, encode_bcnx_toNat, encode_dtick_toNat, encode_rdest_toNat, decode_encode, by decide, by decide, by decide, by decide,
    by decide⟩

/-! ## Operands (R62) -/

theorem rssiValue_rssiField (w : TWord) :
    rssiValue (rssiField w) =
      if w.getLsbD 39 then ((w.toNat / 2 ^ 32 % 256 : Nat) : Int) - 256 else ((w.toNat / 2 ^ 32 % 256 : Nat) : Int) := by
  rw [rssiValue, rssiField_sign, rssiField_toNat]

/-- Settles O6: `TW[40]` selects between the two collector operations, whose operands are the fields of the word. -/
theorem operandsAreAssembledFromTheirFields : Obligations.OperandsAreAssembledFromTheirFields := by
  intro w hport
  constructor
  · intro habsent
    exact ⟨tsField w, by rw [decode, hport, habsent]; rfl, tsField_toNat w⟩
  · intro hpresent
    exact ⟨tsField w, rssiField w, by rw [decode, hport, hpresent]; rfl, tsField_toNat w, rssiValue_rssiField w⟩

end Sys2Proof
end

section
/-! The response words of the reader port (30_encoding.md R67). -/

namespace Sys2Proof.Machine
open Sys2Proof

/-! ## The layout of the response of DTICK -/

theorem dtickResponse_mux (loaded : Bool) (i : Index) : (dtickResponse loaded i).getLsbD 6 = true := by
  rw [dtickResponse, BitVec.getLsbD_append, BitVec.getLsbD_append]; rfl

theorem dtickResponse_show (loaded : Bool) (i : Index) : (dtickResponse loaded i).getLsbD 5 = loaded := by
  rw [dtickResponse, BitVec.getLsbD_append, BitVec.getLsbD_append]
  cases loaded <;> rfl

theorem dtickResponse_index (loaded : Bool) (i : Index) :
    ((dtickResponse loaded i).extractLsb' 0 5).toNat = i.val := by
  have hi : i.val < 27 := i.isLt
  rw [dtickResponse, BitVec.extractLsb'_append_eq_right, BitVec.toNat_ofNat]
  omega

/-! ## Outputs of the operations -/

@[simp] theorem beacon_responses (ts : Tick) (rssi : Byte) (s : State) :
    (beacon ts rssi s).ports.responses = s.ports.responses := by
  obtain ⟨-, h⟩ | ⟨-, h⟩ := beacon_cases ts rssi s
  · simp [h]
  · simp [h, burstClose_eq]

@[simp] theorem showIndex_responses (i : Index) (s : State) : (showIndex i s).ports.responses = s.ports.responses := by
  obtain ⟨-, h⟩ | ⟨-, h⟩ := showIndex_cases i s <;> simp [h]

theorem displayTick_responses (s : State) :
    (displayTick s).ports.responses =
      s.ports.responses ++ [.dtick (dtickResponse (isChanged s.pipe.shown (clamp s.pipe.est)) (clamp s.pipe.est))] := by
  simp [displayTick]

theorem displayTick_display (s : State) :
    (displayTick s).ports.display =
      s.ports.display ++
        if isChanged s.pipe.shown (clamp s.pipe.est) then [.load (clamp s.pipe.est), .mux] else [.mux] := by
  obtain ⟨hs, h⟩ | ⟨hs, h⟩ := showIndex_cases (clamp s.pipe.est) s
  · simp [displayTick, h, isChanged, hs]
  · simp [displayTick, h, isChanged, hs]

/-- Settles O28: the show bit is the condition under which the load is emitted, and the two outputs differ in length. -/
theorem responseWords : Obligations.ResponseWords := by
  refine ⟨?bcnx, ?bcn, ?rdest, ?dtick⟩
  case bcnx => rintro ts s _ ⟨⟩; rfl
  case bcn => rintro ts rssi s _ ⟨⟩; exact beacon_responses ts rssi s
  case rdest => rintro s _ ⟨⟩; rfl
  case dtick =>
    rintro s _ ⟨⟩
    refine ⟨_, displayTick_responses s, dtickResponse_mux .., ?_, ?_, dtickResponse_index .., ?_⟩
    · rw [dtickResponse_show, displayTick_display]
      cases isChanged s.pipe.shown (clamp s.pipe.est) <;> simp
    · rw [dtickResponse_show, displayTick_display]
      cases isChanged s.pipe.shown (clamp s.pipe.est) <;> simp
    · rw [dtickResponse_index]
      exact Nat.le_of_lt_succ (clamp s.pipe.est).isLt

end Sys2Proof.Machine
end

section
/-! Sample capture and the burst trigger (40_capture_fifo.md): elapsed and the mean as numbers, the effect of a beacon on
either side of the trigger, and that no DISPLAY operation reads the log. -/

namespace Sys2Proof.Machine
open Sys2Proof

/-! ## Elapsed and the trigger (R84, R85) -/

theorem wsub32_toNat (a b : Tick) : (wsub32 a b).toNat = (a.toNat + 2 ^ 32 - b.toNat) % 2 ^ 32 := by
  have hb : b.toNat < 2 ^ 32 := b.isLt
  rw [wsub32, BitVec.toNat_sub]
  congr 1
  omega

theorem elapsed_cons_toNat (oldest : Sample) (rest : List Sample) (ts : Tick) :
    (elapsed (oldest :: rest) ts).toNat = (ts.toNat + 2 ^ 32 - oldest.ts.toNat) % 2 ^ 32 :=
  wsub32_toNat ts oldest.ts

theorem logPush_nil (x : Sample) : logPush [] x = [x] := rfl

theorem logPush_getLast? (log : List Sample) (x : Sample) : (logPush log x).getLast? = some x := by
  rw [logPush_eq, List.getLast?_concat]

/-- Settles O13: a pushed log holds an entry at its head, and an empty one holds the operand's Sample there. -/
theorem elapsedIsTakenFromTheOldestModulo : Obligations.ElapsedIsTakenFromTheOldestModulo := by
  intro log ts mag
  refine ⟨?oldest, ?empty, ?newest⟩
  case oldest =>
    obtain ⟨oldest, rest, hlog⟩ := List.exists_cons_of_ne_nil (logPush_ne_nil log ⟨ts, mag⟩)
    rw [hlog]
    exact ⟨oldest, rfl, elapsed_cons_toNat oldest rest ts⟩
  case empty =>
    rintro rfl
    rw [logPush_nil]
    exact BitVec.sub_self ts
  case newest => exact ⟨_, logPush_getLast? log _, rfl⟩

/-- Settles O14: the trigger is `isFull` or `isLate`, each a comparison of numbers. -/
theorem burstTriggerIsFullOrStrictlyLate : Obligations.BurstTriggerIsFullOrStrictlyLate := by
  intro log e
  rw [burstTrigger, Bool.or_eq_true, isFull_iff, isLate_iff]

/-! ## The mean (42_moving_average.md R111) -/

theorem minwSum_le (w : List Byte) : minwSum w ≤ w.length * 255 := by
  have hbyte : ∀ x ∈ w.map BitVec.toNat, x ≤ 255 := by
    intro x hx
    obtain ⟨b, -, rfl⟩ := List.mem_map.mp hx
    exact Nat.le_of_lt_succ b.isLt
  simpa [minwSum] using List.sum_le_card_nsmul _ 255 hbyte

/-- The quotient fits its byte, so the mean does not wrap. -/
theorem mean_toNat (w : List Byte) : (mean w).toNat = minwSum w / w.length := by
  have hfits : minwSum w / w.length ≤ 255 := Nat.div_le_of_le_mul (minwSum_le w)
  rw [mean, BitVec.toNat_ofNat, Nat.mod_eq_of_lt (by omega)]

/-! ## The beacons (R80, R81, R86) -/

section
variable {ts : Tick} {rssi : Byte} {s : State}

theorem exec_bcn_of_no_trigger
    (h : burstTrigger (logPush s.pipe.log ⟨ts, magnitude rssi⟩)
      (elapsed (logPush s.pipe.log ⟨ts, magnitude rssi⟩) ts) = false) :
    exec (.bcn ts rssi) s = .next (s.setLog (logPush s.pipe.log ⟨ts, magnitude rssi⟩)) := by
  obtain ⟨-, hb⟩ | ⟨ht, -⟩ := beacon_cases ts rssi s
  · exact congrArg _ hb
  · rw [h] at ht
    cases ht

theorem exec_bcn_of_trigger
    (h : burstTrigger (logPush s.pipe.log ⟨ts, magnitude rssi⟩)
      (elapsed (logPush s.pipe.log ⟨ts, magnitude rssi⟩) ts) = true) :
    exec (.bcn ts rssi) s = .next (burstClose (s.setLog (logPush s.pipe.log ⟨ts, magnitude rssi⟩))) := by
  obtain ⟨hf, -⟩ | ⟨-, hb⟩ := beacon_cases ts rssi s
  · rw [h] at hf
    cases hf
  · exact congrArg _ hb
end

/-- Settles O8: BCNX has an empty pseudocode (R80). -/
theorem bcnxCompletesAndChangesNothing : Obligations.BcnxCompletesAndChangesNothing :=
  fun _ _ => rfl

/-- Settles O9: without the trigger a BCN is the write of LOG; with it, the close of a burst on the pushed log, whose mean is
over the window that already holds the new minimum. -/
theorem bcnCompletesWithItsEffect : Obligations.BcnCompletesWithItsEffect := by
  rintro ts rssi s _ rfl
  refine ⟨exec_bcn_of_no_trigger, fun htrigger m n hscan => ⟨mean (s.pipe.minw ++ [m]), ?mean, ?effect⟩⟩
  case mean => simp [mean_toNat, minwSum]
  case effect =>
    rw [exec_bcn_of_trigger htrigger, burstClose_eq, setLog_log, hscan, minwTrim_eq]
    simp [State.setLog]

/-! ## DISPLAY operations do not read the log -/

section
variable (s : State) (log : List Sample)

theorem showIndex_setLog (i : Index) : showIndex i (s.setLog log) = (showIndex i s).setLog log := by
  rw [showIndex, showIndex, apply_ite (State.setLog · log)]
  rfl

theorem displayTick_setLog : displayTick (s.setLog log) = (displayTick s).setLog log := by
  simp only [displayTick, atomLoad_eq, setLog_est, setLog_shown, showIndex_setLog]
  rfl

theorem readEstimate_setLog : readEstimate (s.setLog log) = (readEstimate s).setLog log := rfl

theorem displayOp_run_setLog (d : DisplayOp) : d.run (s.setLog log) = (d.run s).setLog log := by
  cases d with
  | dtick => exact displayTick_setLog s log
  | rdest => exact readEstimate_setLog s log
end

theorem runDisplay_setLog (ds : List DisplayOp) (s : State) (log : List Sample) :
    runDisplay ds (s.setLog log) = (runDisplay ds s).setLog log :=
  List.foldl_hom (State.setLog · log) fun s d => displayOp_run_setLog s log d

/-- Settles O15: a BCN without the trigger is a write of LOG, and a write of LOG commutes with every DISPLAY operation. -/
theorem noBurstNoEffectBeyondTheAppend : Obligations.NoBurstNoEffectBeyondTheAppend := by
  rintro ts rssi s _ rfl hquiet
  refine ⟨_, exec_bcn_of_no_trigger hquiet, rfl, rfl, rfl, rfl, fun ds => ?_⟩
  rw [runDisplay_setLog]
  rfl

end Sys2Proof.Machine
end

section
/-! The sliding-window minimum extractor (41_window_minimum.md): the drain of the log. -/

namespace Sys2Proof.Machine
open Sys2Proof

/-! ## The drain (R101) -/

@[simp] theorem logDrain_eq_drop (n : Nat) (log : List Sample) : logDrain n log = log.drop n :=
  popFrontTimes_eq_drop n log

/-- Settles O18: repeated pops of the oldest entry are one `List.drop`, whose complement is `List.take`. -/
theorem drainRemovesTheOldestEntries : Obligations.DrainRemovesTheOldestEntries := by
  intro n log _
  rw [logDrain_eq_drop]
  exact ⟨rfl, List.length_drop, List.take_append_drop n log⟩

end Sys2Proof.Machine
end

section
/-! The moving-average filter (42_moving_average.md): the push to the window and its trim. -/

namespace Sys2Proof.Machine
open Sys2Proof

/-! ## The window's push and trim (R110, R112) -/

theorem minwPush_eq (w : List Byte) (m : Byte) : minwPush w m = w ++ [m] := pushBack_eq w m

@[simp] theorem length_minwPush (w : List Byte) (m : Byte) : (minwPush w m).length = w.length + 1 := by
  rw [minwPush_eq, List.length_append, List.length_singleton]

theorem minwTrim_eq_drop (w : List Byte) : minwTrim w = if 4 < w.length then w.drop 1 else w := by
  rw [minwTrim_eq, List.drop_one]

/-- R112: "one pop is enough". -/
theorem length_minwTrim_le {w : List Byte} (h : w.length ≤ 5) : (minwTrim w).length ≤ 4 := by
  rw [minwTrim_eq_drop]
  split
  case isTrue => rw [List.length_drop]; omega
  case isFalse hle => exact Nat.not_lt.mp hle

/-- Settles O21: a window of at most four entries has one to five after the push, so the single pop of the trim is enough. -/
theorem windowPushThenTrim : Obligations.WindowPushThenTrim := by
  refine fun w m => ⟨minwPush_eq w m, minwTrim_eq_drop w, fun hlen => ?_⟩
  have hpush := length_minwPush w m
  have hle : (minwPush w m).length ≤ 5 := by omega
  exact ⟨by omega, hle, length_minwTrim_le hle⟩

end Sys2Proof.Machine
end

section
/-! The read side of the atomic publisher (43_publish_display.md): the load of RDEST and the clamp of DTICK. -/

namespace Sys2Proof.Machine
open Sys2Proof

/-- Settles O23: RDEST is one load of EST and its response (R122). -/
theorem rdestAnswersTheEstimate : Obligations.RdestAnswersTheEstimate :=
  fun _ => rfl

/-! ## The clamp (R124) -/

theorem min8_toNat (a b : Byte) : (min8 a b).toNat = min a.toNat b.toNat := by
  unfold min8
  split
  case isTrue hle => exact (Nat.min_eq_left (BitVec.le_def.mp hle)).symm
  case isFalse hgt => exact (Nat.min_eq_right (BitVec.lt_def.mp (BitVec.not_le.mp hgt)).le).symm

/-- The smaller of 26 and the byte is one of the 27 indices, so the clamp does not wrap. -/
theorem clamp_val (e : Byte) : (clamp e).val = min 26 e.toNat := by
  have hmin : (min8 Config.frameClamp e).toNat = min 26 e.toNat := min8_toNat Config.frameClamp e
  have hindex : min 26 e.toNat < 27 := Nat.lt_succ_of_le (Nat.min_le_left 26 e.toNat)
  rw [clamp, Fin.val_ofNat, hmin, Nat.mod_eq_of_lt hindex]

/-- Settles O27: the clamp is the minimum, and the two bounds say which of its sides that is. -/
theorem clampIsTheSmallerOfTwentySixAndTheEstimate :
    Obligations.ClampIsTheSmallerOfTwentySixAndTheEstimate := by
  intro e
  rw [clamp_val]
  exact ⟨rfl, Nat.min_eq_right, Nat.min_eq_left⟩

end Sys2Proof.Machine
end

section
/-! Totality (60_exceptions.md R140): each operation has exactly one outcome, its next state. -/

namespace Sys2Proof.Machine
open Sys2Proof

/-- R140, with the next state named per operation: BCNX leaves the state, each other operation answers its effect. -/
theorem exists_exec_eq_next (i : Instr) (s : State) : ∃ t, exec i s = .next t := by
  cases i with
  | bcnx _ => exact ⟨s, rfl⟩
  | bcn ts rssi => exact ⟨beacon ts rssi s, rfl⟩
  | dtick => exact ⟨displayTick s, rfl⟩
  | rdest => exact ⟨readEstimate s, rfl⟩

/-- Settles O35, by the four operations; RSSIPIPE has no fault to answer with, since `Fault` has no constructor (log
entry 20). -/
theorem everyOperationIsTotal : Obligations.EveryOperationIsTotal :=
  ⟨exists_exec_eq_next, fun _ f => nomatch f⟩

end Sys2Proof.Machine
end

section
/-! The byte container of a transaction word (92_eei_decisions.md D8) and the round trip through it. -/

namespace Sys2Proof
open Sys2Proof.Machine

/-- The bytes of a word, joined from the last to the first, are the word under six zero bits. -/
theorem wordBytes_join (v : BitVec 48) :
    v.extractLsb' 40 8 ++ v.extractLsb' 32 8 ++ v.extractLsb' 24 8 ++ v.extractLsb' 16 8 ++ v.extractLsb' 8 8 ++
      v.extractLsb' 0 8 = v := by
  have join {k j n : Nat} (h : j = k + 8) : v.extractLsb' j n ++ v.extractLsb' k 8 = v.extractLsb' k (n + 8) :=
    BitVec.extractLsb'_append_extractLsb'_eq_extractLsb' h
  rw [join (show 40 = 32 + 8 from rfl), join (show 32 = 24 + 8 from rfl), join (show 24 = 16 + 8 from rfl),
    join (show 16 = 8 + 8 from rfl), join (show 8 = 0 + 8 from rfl)]
  exact BitVec.extractLsb'_eq_self

theorem container_padding (w : TWord) : (w.setWidth 48).extractLsb' 42 6 = 0#6 := by
  apply BitVec.eq_of_toNat_eq
  have hw : w.toNat < 2 ^ 42 := w.isLt
  rw [BitVec.extractLsb'_toNat, BitVec.toNat_setWidth, Nat.shiftRight_eq_div_pow, BitVec.toNat_ofNat]
  omega

theorem takeWord_wordBytes (w : TWord) (rest : List Byte) : takeWord (wordBytes w ++ rest) = .ok (w, rest) := by
  simp only [wordBytes, List.cons_append, List.nil_append, takeWord, wordBytes_join, container_padding, if_true]
  rw [BitVec.setWidth_setWidth_of_le _ (by decide), BitVec.setWidth_eq]

theorem decodeBytes_encodeBytes (i : Instr) (rest : List Byte) :
    decodeBytes (encodeBytes i ++ rest) = .ok (i, rest) := by
  simp only [decodeBytes, encodeBytes, takeWord_wordBytes, decode_encode]

/-- Settles O1: the word's fields are disjoint, and so are the container's bytes, which leave nothing of the word out. -/
theorem decodeOfEncodeIsTheOperation : Obligations.DecodeOfEncodeIsTheOperation :=
  fun i rest => ⟨decode_encode i, decodeBytes_encodeBytes i rest⟩

/-- Settles O5, by evaluation of the decoder on the fixed words. -/
theorem wordsOfTheSpecDecode : Obligations.WordsOfTheSpecDecode :=
  ⟨by decide, by decide, by decide, by decide, by decide, by decide, by decide, by decide, rfl⟩

/-! ## Lines and their operations (R68) -/

theorem rssiValue_eq_toInt (r : Byte) : rssiValue r = r.toInt := by
  rw [rssiValue, BitVec.toInt_eq_msb_cond]
  rfl

theorem tsInRange_iff (ts : Nat) : tsInRange ts = true ↔ ts < 2 ^ 32 := by
  rw [tsInRange, decide_eq_true_iff]
  omega

theorem rssiInRange_iff (rssi : Int) : rssiInRange rssi = true ↔ -128 ≤ rssi ∧ rssi ≤ 127 := by
  rw [rssiInRange, Bool.and_eq_true, decide_eq_true_iff, decide_eq_true_iff]

theorem ofNat_toNat_of_tsInRange {ts : Nat} (h : tsInRange ts = true) : (BitVec.ofNat 32 ts).toNat = ts := by
  rw [BitVec.toNat_ofNat, Nat.mod_eq_of_lt ((tsInRange_iff ts).1 h)]

theorem rssiValue_ofInt_of_rssiInRange {rssi : Int} (h : rssiInRange rssi = true) :
    rssiValue (BitVec.ofInt 8 rssi) = rssi := by
  obtain ⟨hlow, hhigh⟩ := (rssiInRange_iff rssi).1 h
  rw [rssiValue_eq_toInt]
  exact BitVec.toInt_ofInt_eq_self (by decide) (by omega) (by omega)

theorem assemble_bcn {ts : Nat} {rssi : Int} (hts : tsInRange ts = true) (hrssi : rssiInRange rssi = true) :
    Line.assemble (.bcn ts rssi) = some (.bcn (BitVec.ofNat 32 ts) (BitVec.ofInt 8 rssi)) := by
  simp [Line.assemble, hts, hrssi]

theorem assemble_bcnx {ts : Nat} (hts : tsInRange ts = true) :
    Line.assemble (.bcnx ts) = some (.bcnx (BitVec.ofNat 32 ts)) := by
  simp [Line.assemble, hts]

theorem assemble_of_not_wellFormed {l : Line} (h : l.wellFormed = false) : l.assemble = none := by
  cases l with
  | bcnx ts => exact if_neg (Bool.eq_false_iff.1 h)
  | bcn ts rssi => exact if_neg (Bool.eq_false_iff.1 h)
  | dtick => cases h
  | rdest => cases h
  | rst => rfl

theorem lineInput_of_assemble {l : Line} {i : Instr} (h : l.assemble = some i) : lineInput l = some (issue i) := by
  cases l with
  | bcnx ts => exact congrArg (Option.map issue) h
  | bcn ts rssi => exact congrArg (Option.map issue) h
  | dtick => obtain ⟨⟩ := h; rfl
  | rdest => obtain ⟨⟩ := h; rfl
  | rst => cases h

/-- Settles O7: in range neither the cut to 32 bits nor the cut to 8 loses anything of the number. -/
theorem linesAssembleToTheirNumbers : Obligations.LinesAssembleToTheirNumbers := by
  refine ⟨?bcn, ?bcnx, fun _ => assemble_of_not_wellFormed, fun _ _ => lineInput_of_assemble, rfl, rfl, rfl, rfl⟩
  case bcn =>
    intro ts rssi hts hlow hhigh
    have hts' : tsInRange ts = true := decide_eq_true hts
    have hrssi := (rssiInRange_iff rssi).2 ⟨hlow, hhigh⟩
    exact ⟨_, _, assemble_bcn hts' hrssi, ofNat_toNat_of_tsInRange hts', rssiValue_ofInt_of_rssiInRange hrssi⟩
  case bcnx =>
    intro ts hts
    have hts' : tsInRange ts = true := decide_eq_true hts
    exact ⟨_, assemble_bcnx hts', ofNat_toNat_of_tsInRange hts'⟩

end Sys2Proof
end

section
/-! The sliding-window minimum extractor (41_window_minimum.md R100 to R104) on a log that holds an entry: the run that the
scan takes is the log's `List.rtakeWhile` of the valid entries. -/

namespace Sys2Proof.Machine
open Sys2Proof Sys2Proof.Safety

/-! ## The least magnitude of a run -/

/-- The running minimum of `MinScan`, started at `m`. -/
def leastMag (es : List Sample) (m : Byte) : Byte := es.foldl (fun a e => min8 a e.mag) m

theorem leastMag_le_seed (es : List Sample) (m : Byte) : leastMag es m ≤ m := by
  induction es generalizing m with
  | nil => exact BitVec.le_refl m
  | cons e es ih => exact BitVec.le_trans (ih _) (min8_le_left m e.mag)

theorem leastMag_le (es : List Sample) (m : Byte) : ∀ e ∈ es, leastMag es m ≤ e.mag := by
  induction es generalizing m with
  | nil => exact fun _ h => nomatch h
  | cons e es ih =>
    rintro x (_ | ⟨_, hx⟩)
    · exact BitVec.le_trans (leastMag_le_seed es _) (min8_le_right m e.mag)
    · exact ih _ x hx

theorem leastMag_mem_or_eq_seed (es : List Sample) (m : Byte) : leastMag es m = m ∨ ∃ e ∈ es, e.mag = leastMag es m := by
  induction es generalizing m with
  | nil => exact .inl rfl
  | cons e es ih =>
    obtain hseed | ⟨x, hx, hmag⟩ := ih (min8 m e.mag)
    · obtain hm | he := min8_eq_or m e.mag
      · exact .inl (hseed.trans hm)
      · exact .inr ⟨e, List.mem_cons_self, (hseed.trans he).symm⟩
    · exact .inr ⟨x, List.mem_cons_of_mem e hx, hmag⟩

/-- The seed 255 is at least every magnitude, so the least magnitude of a run that holds an entry is an entry's. -/
theorem leastMag_attained {es : List Sample} (hne : es ≠ []) :
    ∃ e ∈ es, e.mag = leastMag es Config.defaultMag := by
  obtain hseed | hentry := leastMag_mem_or_eq_seed es Config.defaultMag
  · obtain ⟨x, hx⟩ := List.exists_mem_of_ne_nil es hne
    have hle : leastMag es Config.defaultMag ≤ x.mag := leastMag_le es _ x hx
    have hmax : x.mag ≤ Config.defaultMag := BitVec.le_def.2 (Nat.le_of_lt_succ x.mag.isLt)
    exact ⟨x, hx, BitVec.le_antisymm (hmax.trans_eq hseed.symm) hle⟩
  · exact hentry

/-! ## The run that the scan takes -/

theorem not_of_getElem?_length_takeWhile {α : Type} {p : α → Bool} {xs : List α} {x : α}
    (h : xs[(xs.takeWhile p).length]? = some x) : ¬ p x = true := by
  induction xs with
  | nil => cases h
  | cons y ys ih =>
    by_cases hy : p y = true
    · exact ih (by simpa [hy] using h)
    · obtain rfl : y = x := by simpa [hy] using h
      exact hy

/-- The maximal run of valid entries at the newest end. -/
def newestRun (newest : Tick) (log : List Sample) : List Sample := log.rtakeWhile (isValid newest)

theorem minScan_eq {log : List Sample} {newest : Sample} (h : log.getLast? = some newest) :
    minScan log =
      (leastMag (newestRun newest.ts log).reverse Config.defaultMag, (newestRun newest.ts log).length) := by
  obtain ⟨older, rfl⟩ := List.getLast?_eq_some_iff.1 h
  rw [minScan_append, scanFrom_eq, newestRun, List.rtakeWhile, List.reverse_concat, List.reverse_reverse,
    List.length_reverse, Nat.zero_add, leastMag]

theorem length_newestRun_le (newest : Tick) (log : List Sample) : (newestRun newest log).length ≤ log.length :=
  (List.rtakeWhile_suffix _ log).length_le

theorem newestRun_eq_drop (newest : Tick) (log : List Sample) :
    log.drop (log.length - (newestRun newest log).length) = newestRun newest log :=
  (List.suffix_iff_eq_drop.1 (List.rtakeWhile_suffix _ log)).symm

theorem valid_of_mem_newestRun {newest : Tick} {log : List Sample} {e : Sample} (h : e ∈ newestRun newest log) :
    (wsub32 newest e.ts).toNat < 250000 :=
  (isValid_iff newest e).1 (List.mem_rtakeWhile_imp h)

/-- The newest entry has age 0. -/
theorem newest_mem_newestRun {log : List Sample} {newest : Sample} (h : log.getLast? = some newest) :
    newest ∈ newestRun newest.ts log := by
  obtain ⟨older, rfl⟩ := List.getLast?_eq_some_iff.1 h
  rw [newestRun, List.rtakeWhile_concat_pos _ _ _ (isValid_self newest)]
  exact List.mem_concat_self

/-- The entry before the run stopped the scan. -/
theorem stale_before_newestRun {newest : Tick} {log : List Sample} {e : Sample}
    (h : log.reverse[(newestRun newest log).length]? = some e) : 250000 ≤ (wsub32 newest e.ts).toNat := by
  rw [newestRun, List.rtakeWhile, List.length_reverse] at h
  exact Nat.not_lt.1 ((isValid_iff newest e).not.1 (not_of_getElem?_length_takeWhile h))

/-- R102: the least magnitude of the run is an entry's and at most each entry's. -/
theorem minScan_spec {log : List Sample} {newest : Sample} {m : Byte} {n : Nat} (hlast : log.getLast? = some newest)
    (hscan : minScan log = (m, n)) :
    n = (newestRun newest.ts log).length ∧ 1 ≤ n ∧ (∃ e ∈ newestRun newest.ts log, e.mag = m) ∧
      ∀ e ∈ newestRun newest.ts log, m.toNat ≤ e.mag.toNat := by
  rw [minScan_eq hlast] at hscan
  obtain ⟨rfl, rfl⟩ := Prod.mk.inj hscan
  have hmem := newest_mem_newestRun hlast
  have hne : (newestRun newest.ts log).reverse ≠ [] := List.ne_nil_of_mem (List.mem_reverse.2 hmem)
  obtain ⟨e, he, hmag⟩ := leastMag_attained hne
  exact ⟨rfl, List.length_pos_of_mem hmem, ⟨e, List.mem_reverse.1 he, hmag⟩,
    fun e he => BitVec.le_def.1 (leastMag_le _ _ e (List.mem_reverse.2 he))⟩

/-- Settles O16: the scan is the run of valid entries at the newest end, which the newest entry itself begins. -/
theorem scanFindsTheNewestValidRun : Obligations.ScanFindsTheNewestValidRun := by
  intro log newest hlast m n hscan
  obtain ⟨rfl, hpos, hattained, hleast⟩ := minScan_spec hlast hscan
  rw [newestRun_eq_drop]
  exact ⟨hpos, length_newestRun_le _ log, fun _ => valid_of_mem_newestRun, fun _ => stale_before_newestRun, hattained,
    hleast⟩

/-! ## Time-ordered logs (R103) -/

/-- Where `p` once true stays true to the end, what it selects is a suffix. -/
theorem filter_eq_rtakeWhile {α : Type} {p : α → Bool} {xs : List α}
    (h : xs.Pairwise fun a b => p a = true → p b = true) : xs.filter p = xs.rtakeWhile p := by
  induction xs using List.reverseRecOn with
  | nil => rfl
  | append_singleton xs x ih =>
    obtain ⟨hxs, -, hx⟩ := List.pairwise_append.1 h
    by_cases hp : p x = true
    · rw [List.rtakeWhile_concat_pos _ _ _ hp, ← ih hxs, List.filter_append, List.filter_singleton, hp]
      rfl
    · rw [List.rtakeWhile_concat_neg _ _ _ hp, List.filter_eq_nil_iff]
      intro a ha hpa
      obtain hxs | rfl := List.mem_append.1 ha |>.imp_right List.mem_singleton.1
      · exact hp (hx a hxs x List.mem_cons_self hpa)
      · exact hp hpa

/-- Ticks less than 2^32 apart have the distance of their cut timestamps. -/
theorem wsub32_toNat_of_ticks {a b : Tick} {x y : Nat} (ha : a.toNat = x % 2 ^ 32) (hb : b.toNat = y % 2 ^ 32)
    (hle : y ≤ x) (hspan : x < y + 2 ^ 32) : (wsub32 a b).toNat = x - y := by
  rw [wsub32_toNat, ha, hb]
  omega

/-- In a time-ordered log ages do not grow from position 0 on, so behind a valid entry every entry is valid. -/
theorem pairwise_isValid_of_timeOrdered {log : List Sample} {τ : List Nat} {newest : Sample} (h : TimeOrdered log τ)
    (hlast : log.getLast? = some newest) :
    log.Pairwise fun a b => isValid newest.ts a = true → isValid newest.ts b = true := by
  obtain ⟨hticks, hsorted, hspan⟩ := h
  have hlen : log.length = τ.length := by simpa using congrArg List.length hticks
  obtain ⟨hend, rfl⟩ := List.getElem?_eq_some_iff.1 (List.getLast?_eq_getElem? ▸ hlast)
  rw [List.pairwise_iff_getElem] at hsorted ⊢
  have htick (i : Nat) (hi : i < log.length) : log[i].ts.toNat = τ[i] % 2 ^ 32 := by
    have heq := List.getElem_of_eq hticks (i := i) (by rwa [List.length_map])
    rwa [List.getElem_map, List.getElem_map] at heq
  have hmax (i : Nat) (hi : i < log.length) : τ[i] ≤ τ[log.length - 1] := by
    obtain hlt | rfl : i < log.length - 1 ∨ i = log.length - 1 := by omega
    · exact hsorted i (log.length - 1) _ _ hlt
    · exact le_rfl
  have hage (i : Nat) (hi : i < log.length) :
      (wsub32 log[log.length - 1].ts log[i].ts).toNat = τ[log.length - 1] - τ[i] :=
    wsub32_toNat_of_ticks (htick _ hend) (htick i hi) (hmax i hi)
      (hspan _ (List.getElem_mem _) _ (List.getElem_mem _))
  intro i j hi hj hij
  rw [isValid_iff, isValid_iff, hage i hi, hage j hj]
  have hsij := hsorted i j (hlen ▸ hi) (hlen ▸ hj) hij
  omega

theorem decide_age_eq_isValid (newest : Tick) :
    (fun e : Sample => decide ((wsub32 newest e.ts).toNat < 250000)) = isValid newest := by
  funext e
  rw [Bool.eq_iff_iff, isValid_iff, decide_eq_true_iff]

/-- Settles O17: on a time-ordered log the run at the newest end is all that is valid. -/
theorem timeOrderedScanIsTheTrueMinimum : Obligations.TimeOrderedScanIsTheTrueMinimum := by
  intro log τ newest hordered hlast m n hscan
  have hrun : log.filter (isValid newest.ts) = newestRun newest.ts log :=
    filter_eq_rtakeWhile (pairwise_isValid_of_timeOrdered hordered hlast)
  have hmem (e : Sample) (he : e ∈ log) (hage : (wsub32 newest.ts e.ts).toNat < 250000) :
      e ∈ newestRun newest.ts log :=
    hrun ▸ List.mem_filter.2 ⟨he, (isValid_iff newest.ts e).2 hage⟩
  obtain ⟨rfl, -, ⟨e, he, hmag⟩, hleast⟩ := minScan_spec hlast hscan
  rw [decide_age_eq_isValid, hrun, newestRun_eq_drop]
  exact ⟨rfl, rfl, ⟨e, (List.rtakeWhile_suffix _ log).mem he, valid_of_mem_newestRun he, hmag⟩,
    fun e he hage => hleast e (hmem e he hage)⟩

end Sys2Proof.Machine
end

section
/-! Sample capture (40_capture_fifo.md): the magnitude as a number, the push to a log within its capacity, time as ticks. -/

namespace Sys2Proof.Machine
open Sys2Proof

/-! ## The magnitude (R82) -/

theorem rssiValue_bounds (r : Byte) : -128 ≤ rssiValue r ∧ rssiValue r ≤ 127 := by
  rw [rssiValue_eq_toInt]
  exact ⟨BitVec.le_toInt r, Int.le_of_lt_add_one BitVec.toInt_lt⟩

theorem abs8_toNat (r : Byte) : (abs8 r).toNat = (rssiValue r).natAbs := by
  obtain ⟨hlow, hhigh⟩ := rssiValue_bounds r
  rw [abs8, BitVec.toNat_ofNat, Nat.mod_eq_of_lt (by omega)]

theorem satSub8_toNat (a b : Byte) : (satSub8 a b).toNat = a.toNat - b.toNat := by
  unfold satSub8
  split
  case isTrue hle => exact BitVec.toNat_sub_of_le hle
  case isFalse hlt => exact (Nat.sub_eq_zero_of_le (BitVec.le_def.1 (BitVec.le_of_lt (BitVec.not_le.1 hlt)))).symm

theorem magnitude_toNat (rssi : Byte) : (magnitude rssi).toNat = (rssiValue rssi).natAbs - 42 := by
  rw [magnitude, satSub8_toNat, abs8_toNat]
  rfl

theorem magnitude_le (rssi : Byte) : (magnitude rssi).toNat ≤ 86 := by
  obtain ⟨hlow, hhigh⟩ := rssiValue_bounds rssi
  rw [magnitude_toNat]
  omega

/-- Settles O11: the magnitude is a function of the absolute value, which is at most 128. -/
theorem magnitudeSaturates : Obligations.MagnitudeSaturates := by
  refine fun rssi => ⟨magnitude_toNat rssi, magnitude_le rssi, ?zero, fun rssi' hneg => ?sign⟩
  case zero =>
    rw [magnitude_toNat]
    omega
  case sign =>
    apply BitVec.eq_of_toNat_eq
    rw [magnitude_toNat, magnitude_toNat, hneg, Int.natAbs_neg]

/-! ## The push (R83) -/

theorem length_logPush (log : List Sample) (x : Sample) :
    (logPush log x).length = if log.length = 32 then 32 else log.length + 1 := by
  rw [logPush_eq]
  split
  case isTrue hfull => simp [hfull]
  case isFalse => simp

theorem length_logPush_le {log : List Sample} (x : Sample) (h : log.length ≤ 32) : (logPush log x).length ≤ 32 := by
  rw [length_logPush]
  split <;> omega

/-- Settles O12: the push appends, after one pop of a full log. -/
theorem logPushEvictsOnlyTheOldest : Obligations.LogPushEvictsOnlyTheOldest := by
  intro log x hlen
  refine ⟨?_, List.length_pos_of_ne_nil (logPush_ne_nil log x), length_logPush_le x hlen, logPush_getLast? log x⟩
  rw [logPush_eq, List.drop_one]

/-! ## Timestamps as ticks (70_reset_and_hazards.md R166) -/

theorem elapsed_cons_ofNat (a b : Nat) (mag : Byte) (rest : List Sample) :
    (elapsed (⟨BitVec.ofNat 32 a, mag⟩ :: rest) (BitVec.ofNat 32 b)).toNat =
      (b % 2 ^ 32 + 2 ^ 32 - a % 2 ^ 32) % 2 ^ 32 := by
  rw [elapsed_cons_toNat, BitVec.toNat_ofNat, BitVec.toNat_ofNat]

/-- Settles O50: elapsed is a difference modulo 2^32, which a step backwards takes to the complement of its length. -/
theorem timestampsAlias : Obligations.TimestampsAlias := by
  constructor
  · intro a b mag rest hle
    rw [elapsed_cons_ofNat]
    omega
  · intro a b mag rest hlt hback
    rw [burstTriggerIsFullOrStrictlyLate, elapsed_cons_ofNat]
    omega

end Sys2Proof.Machine
end

section
/-! The moving-average filter (42_moving_average.md R111, R113): the mean against the window's entries, and the window as the
end of the sequence of minima. -/

namespace Sys2Proof.Machine
open Sys2Proof Sys2Proof.Safety

/-- An average exceeds not every entry. -/
theorem exists_mean_le {w : List Byte} (hne : w ≠ []) : ∃ v ∈ w, (mean w).toNat ≤ v.toNat := by
  apply List.exists_le_of_sum_le hne
  rw [List.map_const', List.sum_replicate, smul_eq_mul, mean_toNat]
  exact Nat.mul_div_le (minwSum w) w.length

/-- Settles O20: the quotient fits the byte, and an average is at most the largest entry. -/
theorem meanIsTheFloorOfTheExactQuotient : Obligations.MeanIsTheFloorOfTheExactQuotient :=
  fun w hne => ⟨mean_toNat w, exists_mean_le hne⟩

theorem windowAfter_concat (ms : List Byte) (m : Byte) :
    windowAfter (ms ++ [m]) = minwTrim (minwPush (windowAfter ms) m) :=
  List.foldl_concat ..

/-- After the push the window holds the last five minima at most. -/
theorem minwPush_drop (ms : List Byte) (m : Byte) :
    minwPush (ms.drop (ms.length - 4)) m = (ms ++ [m]).drop (ms.length + 1 - 5) := by
  rw [minwPush_eq, List.drop_append_of_le_length (by omega)]
  rfl

theorem windowAfter_eq_drop (ms : List Byte) : windowAfter ms = ms.drop (ms.length - 4) := by
  induction ms using List.reverseRecOn with
  | nil => rfl
  | append_singleton ms m ih =>
    rw [windowAfter_concat, ih, minwPush_drop, minwTrim_eq_drop, List.length_drop, List.length_append,
      List.length_singleton, List.drop_drop]
    split <;> congr 1 <;> omega

/-- Settles O22: the push of the next minimum to the last four gives the last five, over which the mean is taken. -/
theorem fiveTapMovingAverage : Obligations.FiveTapMovingAverage := by
  refine fun ms m => ⟨windowAfter_eq_drop ms, ?_⟩
  rw [windowAfter_eq_drop, minwPush_drop, mean_toNat, minwSum, List.length_drop, List.length_append, List.length_singleton]
  congr 1
  omega

end Sys2Proof.Machine
end

section
/-! The reader port's DTICK (43_publish_display.md R123) as one update of the state, with its frame. -/

namespace Sys2Proof.Machine
open Sys2Proof

/-! ## The effect of a tick -/

/-- Step 3 leaves SHOWN at the index, whether it commands the load or finds the index shown already. -/
theorem showIndex_eq (i : Index) (s : State) :
    showIndex i s =
      { s with
        pipe := { s.pipe with shown := some i }
        ports := { s.ports with display := s.ports.display ++ if s.pipe.shown = some i then [] else [.load i] } } := by
  obtain ⟨hshown, h⟩ | ⟨hshown, h⟩ := showIndex_cases i s
  · rw [h, if_pos hshown, List.append_nil, ← hshown]
  · rw [h, if_neg hshown]
    rfl

/-- Everything a tick does. -/
theorem displayTick_eq (s : State) :
    displayTick s =
      { s with
        pipe := { s.pipe with shown := some (clamp s.pipe.est) }
        ports :=
          { s.ports with
            display := s.ports.display ++
              if s.pipe.shown = some (clamp s.pipe.est) then [.mux] else [.load (clamp s.pipe.est), .mux]
            responses := s.ports.responses ++
              [.dtick (dtickResponse (isChanged s.pipe.shown (clamp s.pipe.est)) (clamp s.pipe.est))] } } := by
  rw [displayTick, atomLoad_eq, showIndex_eq]
  split <;> simp [State.emitDisplay, State.respond]

@[simp] theorem displayTick_pipe (s : State) :
    (displayTick s).pipe = { s.pipe with shown := some (clamp s.pipe.est) } := by
  rw [displayTick_eq]

@[simp] theorem displayTick_inbox (s : State) : (displayTick s).ports.inbox = s.ports.inbox := by
  rw [displayTick_eq]

@[simp] theorem displayTick_resetDone (s : State) : (displayTick s).ports.resetDone = s.ports.resetDone := by
  rw [displayTick_eq]

@[simp] theorem displayTick_diag (s : State) : (displayTick s).ports.diag = s.ports.diag := by
  rw [displayTick_eq]

@[simp] theorem displayTick_shownReset (s : State) : (displayTick s).shownReset = s.shownReset := by
  rw [displayTick_eq]

/-! ## The response word as a number (30_encoding.md R67) -/

theorem dtickResponse_of_shown (i : Index) : dtickResponse (isChanged (some i) i) i = BitVec.ofNat 7 (0x40 + i.val) := by
  decide +revert

theorem dtickResponse_of_changed {shown : Option Index} {i : Index} (h : shown ≠ some i) :
    dtickResponse (isChanged shown i) i = BitVec.ofNat 7 (0x60 + i.val) := by
  have hload (i : Index) : dtickResponse true i = BitVec.ofNat 7 (0x60 + i.val) := by decide +revert
  rw [isChanged, decide_eq_true h, hload]

theorem clamp_eq_of_val {s : State} {i : Index} (h : i.val = min 26 s.pipe.est.toNat) : clamp s.pipe.est = i :=
  Fin.ext ((clamp_val s.pipe.est).trans h.symm)

/-- Settles O24: both cases of SHOWN are one update, in which only the load and the show bit differ. -/
theorem dtickCompletesWithItsEffect : Obligations.DtickCompletesWithItsEffect := by
  intro s i hi
  refine congrArg Host.Outcome.next ?_
  rw [displayTick_eq, clamp_eq_of_val hi]
  split
  case isTrue hshown => rw [hshown, dtickResponse_of_shown, ← hshown]
  case isFalse hshown => rw [dtickResponse_of_changed hshown]

/-- Settles O25: a tick writes SHOWN, the display output and the responses, and emits the load when SHOWN moves. -/
theorem readerFrame : Obligations.ReaderFrame := by
  constructor
  · rintro s _ ⟨⟩
    refine ⟨by simp, by simp, by simp, by simp, by simp, by simp, by simp, ?_⟩
    by_cases hshown : s.pipe.shown = some (clamp s.pipe.est)
    · exact .inl (by simp [hshown])
    · exact .inr ⟨clamp s.pipe.est, by simp, by rw [displayTick_eq, if_neg hshown]⟩
  · rintro s _ ⟨⟩
    exact ⟨rfl, rfl, rfl, rfl, rfl, rfl⟩

/-- Settles O26: the first tick leaves EST and puts its index into SHOWN, so the second meets the case without a load. -/
theorem secondTickOnlyMultiplexes : Obligations.SecondTickOnlyMultiplexes := by
  rintro s _ i hi ⟨⟩
  have hshown : (displayTick s).pipe.shown = some i := by rw [displayTick_pipe, clamp_eq_of_val hi]
  have hi' : i.val = min 26 (displayTick s).pipe.est.toNat := by rwa [displayTick_pipe]
  rw [dtickCompletesWithItsEffect (displayTick s) i hi', if_pos hshown]

end Sys2Proof.Machine
end

section
/-! The collector port's BCN (40_capture_fifo.md R81): its frame, and the burst that empties a dense log (R104). -/

namespace Sys2Proof.Machine
open Sys2Proof

/-! ## The frame of a beacon -/

section
variable (ts : Tick) (rssi : Byte) (s : State)

@[simp] theorem beacon_shown : (beacon ts rssi s).pipe.shown = s.pipe.shown := by
  obtain ⟨-, h⟩ | ⟨-, h⟩ := beacon_cases ts rssi s <;> rw [h] <;> rfl

@[simp] theorem beacon_inbox : (beacon ts rssi s).ports.inbox = s.ports.inbox := by
  obtain ⟨-, h⟩ | ⟨-, h⟩ := beacon_cases ts rssi s <;> rw [h] <;> rfl

@[simp] theorem beacon_resetDone : (beacon ts rssi s).ports.resetDone = s.ports.resetDone := by
  obtain ⟨-, h⟩ | ⟨-, h⟩ := beacon_cases ts rssi s <;> rw [h] <;> rfl

@[simp] theorem beacon_display : (beacon ts rssi s).ports.display = s.ports.display := by
  obtain ⟨-, h⟩ | ⟨-, h⟩ := beacon_cases ts rssi s <;> rw [h] <;> rfl

@[simp] theorem beacon_shownReset : (beacon ts rssi s).shownReset = s.shownReset := by
  obtain ⟨-, h⟩ | ⟨-, h⟩ := beacon_cases ts rssi s <;> rw [h] <;> rfl
end

section
variable {ts : Tick} {rssi : Byte} {s : State}

theorem beacon_of_no_trigger
    (h : burstTrigger (logPush s.pipe.log ⟨ts, magnitude rssi⟩)
      (elapsed (logPush s.pipe.log ⟨ts, magnitude rssi⟩) ts) = false) :
    beacon ts rssi s = s.setLog (logPush s.pipe.log ⟨ts, magnitude rssi⟩) :=
  Host.Outcome.next.inj (exec_bcn_of_no_trigger h)
end

theorem logPush_of_not_full {log : List Sample} (x : Sample) (h : log.length ≠ 32) : logPush log x = log ++ [x] := by
  rw [logPush_eq, if_neg h]

/-- R104 (c): the scan of an all-valid log takes it whole. -/
theorem newestRun_of_all_valid {older : List Sample} {newest : Sample}
    (h : ∀ e ∈ older, (wsub32 newest.ts e.ts).toNat < 250000) :
    newestRun newest.ts (older ++ [newest]) = older ++ [newest] := by
  rw [newestRun, List.rtakeWhile_eq_self_iff]
  intro e he
  obtain hold | rfl := List.mem_append.1 he |>.imp_right List.mem_singleton.1
  · exact (isValid_iff newest.ts e).2 (h e hold)
  · exact isValid_self e

/-- Settles O10: a beacon writes LOG, and a burst MINW, EST and DIAG beside it. -/
theorem collectorFrame : Obligations.CollectorFrame := by
  constructor
  · rintro ts s _ ⟨⟩
    exact ⟨rfl, rfl, rfl, rfl, rfl, rfl⟩
  · rintro ts rssi s t ht
    obtain rfl : beacon ts rssi s = t := Host.Outcome.next.inj ht
    refine ⟨beacon_shown .., beacon_inbox .., beacon_resetDone .., beacon_display .., beacon_responses ..,
      beacon_shownReset .., fun hquiet => ?_⟩
    rw [beacon_of_no_trigger hquiet]
    exact ⟨rfl, rfl, rfl⟩

/-- Settles O19: the 32nd entry fills the log, the scan takes all 32, and the drain takes as many. -/
theorem denseFullBurstEmptiesTheLog : Obligations.DenseFullBurstEmptiesTheLog := by
  intro ts rssi s hlen hvalid
  have hpush := logPush_of_not_full ⟨ts, magnitude rssi⟩ (show s.pipe.log.length ≠ 32 by omega)
  have hrun := newestRun_of_all_valid (newest := ⟨ts, magnitude rssi⟩) hvalid
  have hlast := List.getLast?_concat (l := s.pipe.log) (a := ⟨ts, magnitude rssi⟩)
  have htrigger (e : Tick) : burstTrigger (s.pipe.log ++ [⟨ts, magnitude rssi⟩]) e = true :=
    (burstTriggerIsFullOrStrictlyLate _ e).2 (.inl (by rw [List.length_append, hlen, List.length_singleton]))
  obtain ⟨m, n, hscan⟩ : ∃ m n, minScan (s.pipe.log ++ [⟨ts, magnitude rssi⟩]) = (m, n) := ⟨_, _, rfl⟩
  obtain ⟨hn, -, ⟨e, he, hmag⟩, hleast⟩ := minScan_spec hlast hscan
  rw [hrun] at hn he hleast
  refine ⟨_, exec_bcn_of_trigger (hpush ▸ htrigger _), ?empty, ?diag, m, ?least, ?new, ?attained, ?est⟩
  case empty => simp [burstClose_eq, hpush, hscan, hn]
  case diag => simp [burstClose_eq]
  case least => exact fun e he => hleast e (List.mem_append_left _ he)
  case new => exact hleast _ List.mem_concat_self
  case attained =>
    obtain hlog | rfl := List.mem_append.1 he |>.imp_right List.mem_singleton.1
    · exact .inl ⟨e, hlog, hmag⟩
    · exact .inr hmag.symm
  case est => simp [burstClose_eq, hpush, hscan, mean_toNat, minwSum]

end Sys2Proof.Machine
end

section
/-! One step of the machine (Machine/Step.lean): which requests it refuses, and what the steps that answer can do to the
pipeline, from which the invariants of 10_state.md R29 and R30 are derived. -/

namespace Sys2Proof.Machine
open Sys2Proof Sys2Proof.Safety

/-! ## The step by its next input -/

theorem step_of_empty {s : State} (h : s.ports.inbox = []) : step s = .next s := by
  rw [step, h]

theorem step_of_reset {s : State} {rest : List Input} (h : s.ports.inbox = .reset :: rest) :
    step s = .next (State.resetWith s.shownReset rest) := by
  rw [step, h]
  rfl

section
variable {s : State} {r : Request} {rest : List Input}

theorem step_of_conforming (h : s.ports.inbox = .transaction r :: rest) (hc : Conforms r s) :
    step s = exec (decode r.word) (s.setInbox rest) := by
  simp only [step, h, (violation_eq_none_iff r s).2 hc]

/-- Only a violation is refused, because every operation answers a next state. -/
theorem step_eq_refused_iff (h : s.ports.inbox = .transaction r :: rest) (why : Refusal) :
    step s = .refused why ↔ violation r s = some why := by
  obtain ⟨t, ht⟩ := exists_exec_eq_next (decode r.word) (s.setInbox rest)
  cases hv : violation r s <;> simp [step, h, hv, ht]
end

/-! ## Refusals (60_exceptions.md R141) -/

theorem violation_of_not_resetDone {r : Request} {s : State} (h : s.ports.resetDone = false) :
    violation r s = some .beforeReset := by
  simp [violation, h]

/-- Each name of a refusal says which duty the request breaks. -/
theorem violation_cases {r : Request} {s : State} {why : Refusal} (h : violation r s = some why) :
    (why = .beforeReset ∧ s.ports.resetDone = false) ∨
    (why = .wrongPort ∧ r.port ≠ portOf (decode r.word)) ∨
    (why = .wrongContext ∧ r.agent ≠ agentOf (portOf (decode r.word))) ∨
    (why = .reentrantCollector ∧ portOf (decode r.word) = .collector ∧ r.collectorBusy = true) ∨
    (why = .displayUnlocked ∧ decode r.word = .dtick ∧ r.displayLock = false) := by
  simp only [violation, Bool.not_eq_true', bne_iff_ne, Bool.and_eq_true, beq_iff_eq] at h
  split at h
  case isTrue hb => exact .inl ⟨(Option.some.inj h).symm, hb⟩
  split at h
  case isTrue hb => exact .inr (.inl ⟨(Option.some.inj h).symm, hb⟩)
  split at h
  case isTrue hb => exact .inr (.inr (.inl ⟨(Option.some.inj h).symm, hb⟩))
  split at h
  case isTrue hb => exact .inr (.inr (.inr (.inl ⟨(Option.some.inj h).symm, hb⟩)))
  split at h
  case isTrue hb => exact .inr (.inr (.inr (.inr ⟨(Option.some.inj h).symm, hb⟩)))
  cases h

theorem exists_violation_iff (r : Request) (s : State) : (∃ why, violation r s = some why) ↔ ¬ Conforms r s :=
  Option.ne_none_iff_exists'.symm.trans (violation_eq_none_iff r s).not

/-- Settles O34: a step refuses a request exactly when `violation` names a duty that it breaks. -/
theorem protocolViolationsAreRefused : Obligations.ProtocolViolationsAreRefused := by
  intro s r rest hinbox
  simp only [step_eq_refused_iff hinbox, exists_violation_iff, ne_eq, true_and]
  refine ⟨⟨fun h => ?before, violation_of_not_resetDone⟩, fun h => ?port, fun h => ?context, fun h => ?reentrant,
    fun h => ?unlocked, fun m h => ?modelled⟩ <;> simpa using violation_cases h

/-- Settles O30: a request that conforms is let through to the operation of its word. -/
theorem stepRunsTheDecodedOperation : Obligations.StepRunsTheDecodedOperation := by
  rintro s r rest _ hinbox rfl hconforms
  exact step_of_conforming hinbox hconforms

/-- Settles O31: the reset event builds its state from `SHOWN_RESET` and the inputs to come alone. -/
theorem idleAndResetSteps : Obligations.IdleAndResetSteps :=
  fun _ => ⟨step_of_empty, fun _ => step_of_reset⟩

/-- Settles O32, by the definition of the reset state. -/
theorem resetLeavesTheseValues : Obligations.ResetLeavesTheseValues :=
  ⟨rfl, rfl, rfl, rfl, rfl, rfl, rfl, fun _ => rfl⟩

/-- Settles O33: what the reset event builds its state from is the same in both machines. -/
theorem nothingSurvivesReset : Obligations.NothingSurvivesReset :=
  fun _ _ _ h h' hshown => ⟨_, step_of_reset h, hshown ▸ step_of_reset h'⟩

/-! ## What a step does to LOG, MINW, EST and DIAG -/

/-- LOG, MINW, EST and the DIAG output of `t` are those of `s`. -/
def SamePipeline (s t : State) : Prop :=
  t.pipe.log = s.pipe.log ∧ t.pipe.minw = s.pipe.minw ∧ t.pipe.est = s.pipe.est ∧ t.ports.diag = s.ports.diag

/-- Only a BCN, issued as its port asks, and the reset event move the pipeline. -/
theorem step_pipeline_cases {s t : State} (h : step s = .next t) :
    SamePipeline s t ∨
    (∃ rest, s.ports.inbox = .reset :: rest ∧ t = State.resetWith s.shownReset rest) ∨
    (∃ r rest ts rssi, s.ports.inbox = .transaction r :: rest ∧ decode r.word = .bcn ts rssi ∧ r.agent = .collector ∧
      r.port = .collector ∧ t = beacon ts rssi (s.setInbox rest)) := by
  obtain ⟨-, rfl⟩ | ⟨rest, hinbox, rfl⟩ | ⟨r, rest, hinbox, hlet, hexec⟩ := step_cases h
  · exact .inl ⟨rfl, rfl, rfl, rfl⟩
  · exact .inr (.inl ⟨rest, hinbox, rfl⟩)
  obtain ⟨-, hport, hagent, -, -⟩ := (violation_eq_none_iff r s).1 hlet
  obtain ⟨ts, -, rfl⟩ | ⟨ts, rssi, hbcn, rfl⟩ | ⟨-, rfl⟩ | ⟨-, rfl⟩ := exec_cases hexec
  · exact .inl ⟨rfl, rfl, rfl, rfl⟩
  · rw [hbcn] at hport hagent
    exact .inr (.inr ⟨r, rest, ts, rssi, hinbox, hbcn, hagent, hport, rfl⟩)
  · exact .inl (by simp [SamePipeline])
  · exact .inl ⟨rfl, rfl, rfl, rfl⟩

/-- Settles O39, by the case split of the step. -/
theorem onlyBeaconsMoveThePipeline : Obligations.OnlyBeaconsMoveThePipeline := by
  intro s t h
  obtain hsame | ⟨rest, hinbox, -⟩ | ⟨r, rest, ts, rssi, hinbox, hbcn, hagent, hport, -⟩ := step_pipeline_cases h
  · exact .inl hsame
  · exact .inr (.inl ⟨rest, hinbox⟩)
  · exact .inr (.inr ⟨r, rest, ts, rssi, hinbox, hbcn, hagent, hport⟩)

/-- Settles O40: of the operations only a tick writes SHOWN, and its request was let through under the lock. -/
theorem onlyTicksMoveTheShownIndex : Obligations.OnlyTicksMoveTheShownIndex := by
  intro s t h
  obtain ⟨-, rfl⟩ | ⟨rest, hinbox, -⟩ | ⟨r, rest, hinbox, hlet, hexec⟩ := step_cases h
  · exact .inl rfl
  · exact .inr (.inl ⟨rest, hinbox⟩)
  obtain ⟨-, -, hagent, -, hlock⟩ := (violation_eq_none_iff r s).1 hlet
  obtain ⟨ts, -, rfl⟩ | ⟨ts, rssi, -, rfl⟩ | ⟨htick, rfl⟩ | ⟨-, rfl⟩ := exec_cases hexec
  · exact .inl rfl
  · exact .inl (beacon_shown ts rssi (s.setInbox rest))
  · rw [htick] at hagent
    exact .inr (.inr ⟨r, rest, hinbox, htick, hagent, hlock htick, by simp⟩)
  · exact .inl rfl

/-! ## The store order of EST (20_memory.md R47) -/

theorem published_of_samePipeline {s t : State} (h : SamePipeline s t) : published t = published s :=
  congrArg (List.map DiagEvent.value) h.2.2.2

theorem published_burstClose (s : State) : published (burstClose s) = published s ++ [(burstClose s).pipe.est] := by
  simp [published, burstClose_eq]

/-- One BCN closes at most one burst, and publishes what it stores. -/
theorem beacon_published (ts : Tick) (rssi : Byte) (s : State) :
    (published (beacon ts rssi s) = published s ∧ (beacon ts rssi s).pipe.est = s.pipe.est) ∨
      published (beacon ts rssi s) = published s ++ [(beacon ts rssi s).pipe.est] := by
  obtain ⟨-, h⟩ | ⟨-, h⟩ := beacon_cases ts rssi s <;> rw [h]
  · exact .inl ⟨rfl, rfl⟩
  · exact .inr (published_burstClose _)

/-- Settles O44, by the case split of the step. -/
theorem storeOrderOnlyGrows : Obligations.StoreOrderOnlyGrows := by
  intro s t h hreset
  obtain hsame | ⟨rest, hinbox, -⟩ | ⟨r, rest, ts, rssi, -, -, -, -, rfl⟩ := step_pipeline_cases h
  · obtain ⟨-, -, hest, -⟩ := id hsame
    exact .inl ⟨published_of_samePipeline hsame, hest⟩
  · exact absurd hinbox (hreset rest)
  · exact beacon_published ts rssi (s.setInbox rest)

/-! ## The storage bounds (R29) -/

theorem storageBounds_beacon (ts : Tick) (rssi : Byte) {s : State} (h : StorageBounds s) :
    StorageBounds (beacon ts rssi s) := by
  obtain ⟨hlog, hminw⟩ := h
  have hpush := length_logPush_le ⟨ts, magnitude rssi⟩ hlog
  obtain ⟨-, hb⟩ | ⟨-, hb⟩ := beacon_cases ts rssi s <;> rw [hb]
  · exact ⟨hpush, hminw⟩
  · rw [burstClose_eq]
    refine ⟨(List.drop_sublist _ _).length_le.trans hpush, length_minwTrim_le ?_⟩
    rw [List.length_append]
    exact Nat.succ_le_succ hminw

/-- Settles O38: the push evicts from a full log and the trim from a full window. -/
theorem everyStepKeepsTheStorageBounds : Obligations.EveryStepKeepsTheStorageBounds := by
  refine ⟨by decide, fun s t hb h => ?_⟩
  obtain ⟨hlog, hminw, -, -⟩ | ⟨rest, -, rfl⟩ | ⟨r, rest, ts, rssi, -, -, -, -, rfl⟩ := step_pipeline_cases h
  · rwa [StorageBounds, hlog, hminw]
  · exact ⟨Nat.zero_le _, Nat.zero_le _⟩
  · exact storageBounds_beacon ts rssi hb

/-! ## The reachable invariant (R30) -/

theorem reachInv_of_samePipeline {s t : State} (h : SamePipeline s t) (hs : ReachInv s) : ReachInv t := by
  have hpub := published_of_samePipeline h
  obtain ⟨hlog, hminw, hest, -⟩ := h
  rwa [ReachInv, hlog, hminw, hest, latestStore, hpub]

theorem reachInv_resetWith (v : Option Index) (inbox : List Input) : ReachInv (State.resetWith v inbox) :=
  ⟨Nat.zero_le _, rfl, List.forall_mem_nil _, List.forall_mem_nil _, Nat.zero_le _, rfl⟩

theorem mem_logPush {log : List Sample} {x e : Sample} (h : e ∈ logPush log x) : e ∈ log ∨ e = x := by
  rw [logPush_eq, List.mem_append, List.mem_singleton] at h
  refine h.imp_left fun he => ?_
  split at he
  case isTrue => exact List.mem_of_mem_tail he
  case isFalse => exact he

theorem mem_of_mem_minwTrim {w : List Byte} {v : Byte} (h : v ∈ minwTrim w) : v ∈ w := by
  rw [minwTrim_eq_drop] at h
  split at h
  case isTrue => exact List.mem_of_mem_drop h
  case isFalse => exact h

theorem length_minwTrim (w : List Byte) : (minwTrim w).length = if 4 < w.length then w.length - 1 else w.length := by
  rw [minwTrim_eq_drop, apply_ite List.length, List.length_drop]

/-- The close of a burst drains one entry at least, and what it publishes is an average of magnitudes. -/
theorem reachInv_burstClose {s : State} {newest : Sample} (hlast : s.pipe.log.getLast? = some newest)
    (hlen : s.pipe.log.length ≤ 32) (hwindow : s.pipe.minw.length = min 4 (published s).length)
    (hmag : ∀ e ∈ s.pipe.log, e.mag.toNat ≤ 86) (hminw : ∀ v ∈ s.pipe.minw, v.toNat ≤ 86) :
    ReachInv (burstClose s) := by
  obtain ⟨m, n, hscan⟩ : ∃ m n, minScan s.pipe.log = (m, n) := ⟨_, _, rfl⟩
  obtain ⟨-, hpos, ⟨e, he, rfl⟩, -⟩ := minScan_spec hlast hscan
  have hwindow' : ∀ v ∈ s.pipe.minw ++ [e.mag], v.toNat ≤ 86 := by
    rintro v hv
    obtain hold | rfl := List.mem_append.1 hv |>.imp_right List.mem_singleton.1
    · exact hminw v hold
    · exact hmag e ((List.rtakeWhile_suffix _ _).mem he)
  obtain ⟨v, hv, hmean⟩ := exists_mean_le (List.concat_ne_nil e.mag s.pipe.minw)
  refine ⟨?log, ?window, ?mags, ?minima, ?est, ?store⟩
  case log =>
    rw [burstClose_eq, hscan, List.length_drop]
    omega
  case window =>
    rw [published_burstClose, List.length_append, List.length_singleton, burstClose_eq, length_minwTrim,
      List.length_append, List.length_singleton]
    split <;> omega
  case mags => exact fun e he => hmag e (List.mem_of_mem_drop (by simpa [burstClose_eq] using he))
  case minima => exact fun v hv => hwindow' v (mem_of_mem_minwTrim (by simpa [burstClose_eq, hscan] using hv))
  case est => simpa [burstClose_eq, hscan] using hmean.trans (hwindow' v hv)
  case store => rw [latestStore, published_burstClose, List.getLastD_concat]

theorem reachInv_beacon (ts : Tick) (rssi : Byte) {s : State} (h : ReachInv s) : ReachInv (beacon ts rssi s) := by
  obtain ⟨hlog, hwindow, hmag, hminw, hest, hstore⟩ := h
  have hpush := length_logPush_le ⟨ts, magnitude rssi⟩ (show s.pipe.log.length ≤ 32 by omega)
  have hmag' : ∀ e ∈ logPush s.pipe.log ⟨ts, magnitude rssi⟩, e.mag.toNat ≤ 86 := by
    intro e he
    obtain hold | rfl := mem_logPush he
    · exact hmag e hold
    · exact magnitude_le rssi
  obtain ⟨hquiet, hb⟩ | ⟨-, hb⟩ := beacon_cases ts rssi s <;> rw [hb]
  · have hroom := (burstTriggerIsFullOrStrictlyLate _ _).not.1 (Bool.eq_false_iff.1 hquiet)
    have hlog' : (logPush s.pipe.log ⟨ts, magnitude rssi⟩).length ≤ 31 := by omega
    exact ⟨hlog', hwindow, hmag', hminw, hest, hstore⟩
  · exact reachInv_burstClose (logPush_getLast? _ _) hpush hwindow hmag' hminw

/-- Settles O36: a quiet beacon leaves a log that is not full, and a burst drains one entry at least and publishes what it
stores. -/
theorem everyStepKeepsTheReachableInvariant : Obligations.EveryStepKeepsTheReachableInvariant := by
  intro s t hs h
  obtain hsame | ⟨rest, -, rfl⟩ | ⟨r, rest, ts, rssi, -, -, -, -, rfl⟩ := step_pipeline_cases h
  · exact reachInv_of_samePipeline hsame hs
  · exact reachInv_resetWith s.shownReset rest
  · exact reachInv_beacon ts rssi hs

/-- Settles O37: the reset state is empty, for every `SHOWN_RESET`. -/
theorem reachableInvariantHoldsAtReset : Obligations.ReachableInvariantHoldsAtReset :=
  ⟨reachInv_resetWith Config.shownReset [], reachInv_resetWith⟩

/-- Settles O29: both loads read EST, which the invariant says is the latest store. -/
theorem loadsSeeTheLatestStore : Obligations.LoadsSeeTheLatestStore := by
  rintro s ⟨-, -, -, -, -, hstore⟩
  rw [← hstore]
  exact ⟨⟨_, rfl, rfl, rfl⟩, ⟨_, rfl, by rw [displayTick_pipe], by rw [published, displayTick_diag]; rfl⟩⟩

end Sys2Proof.Machine
end

section
/-! Noninterference (10_state.md R33): what DISPLAY does not read, what COLLECTOR does not read, and that nothing reads DIAG. -/

namespace Sys2Proof.Machine
open Sys2Proof

/-! ## Updates of the state that no DISPLAY operation sees -/

/-- The update leaves what DISPLAY operations read and commutes with what they write. -/
structure HiddenFromDisplay (f : State → State) : Prop where
  est (s : State) : (f s).pipe.est = s.pipe.est
  shown (s : State) : (f s).pipe.shown = s.pipe.shown
  emitDisplay (s : State) (e : DisplayEvent) : (f s).emitDisplay e = f (s.emitDisplay e)
  setShown (s : State) (v : Option Index) : (f s).setShown v = f (s.setShown v)
  respond (s : State) (r : Response) : (f s).respond r = f (s.respond r)

section
variable {f : State → State} (h : HiddenFromDisplay f)
include h

theorem showIndex_of_hidden (i : Index) (s : State) : showIndex i (f s) = f (showIndex i s) := by
  rw [showIndex, showIndex, h.shown, h.emitDisplay, h.setShown, apply_ite f]

theorem displayTick_of_hidden (s : State) : displayTick (f s) = f (displayTick s) := by
  simp only [displayTick, atomLoad_eq, h.est, h.shown, showIndex_of_hidden h, h.emitDisplay, h.respond]

theorem displayOp_run_of_hidden (d : DisplayOp) (s : State) : d.run (f s) = f (d.run s) := by
  cases d with
  | dtick => exact displayTick_of_hidden h s
  | rdest => rw [DisplayOp.run, DisplayOp.run, readEstimate, readEstimate, atomLoad_eq, atomLoad_eq, h.est, h.respond]

theorem runDisplay_of_hidden (ds : List DisplayOp) (s : State) : runDisplay ds (f s) = f (runDisplay ds s) :=
  List.foldl_hom f fun s d => displayOp_run_of_hidden h d s
end

/-- Settles O41: a write of LOG and MINW is hidden from DISPLAY. -/
theorem displayIsBlindToTheFifos : Obligations.DisplayIsBlindToTheFifos :=
  fun ds s log minw =>
    runDisplay_of_hidden (f := fun s => { s with pipe := { s.pipe with log := log, minw := minw } })
      ⟨fun _ => rfl, fun _ => rfl, fun _ _ => rfl, fun _ _ => rfl, fun _ _ => rfl⟩ ds s

/-! ## What a beacon does not read -/

theorem beacon_setShown (ts : Tick) (rssi : Byte) (s : State) (v : Option Index) :
    beacon ts rssi (s.setShown v) = (beacon ts rssi s).setShown v := by
  rw [beacon, beacon, apply_ite (State.setShown · v)]
  rfl

/-- Settles O42: a write of SHOWN commutes with the only collector operation that has an effect. -/
theorem collectorIsBlindToTheShownIndex : Obligations.CollectorIsBlindToTheShownIndex := by
  intro i s t v hport h
  obtain ⟨ts, rfl, rfl⟩ | ⟨ts, rssi, rfl, rfl⟩ | ⟨rfl, -⟩ | ⟨rfl, -⟩ := exec_cases h
  · rfl
  · exact congrArg Host.Outcome.next (beacon_setShown ts rssi s v)
  · cases hport
  · cases hport

/-- The machine with another record of DIAG events. -/
def State.setDiag (s : State) (d : List DiagEvent) : State := { s with ports := { s.ports with diag := d } }

theorem hiddenFromDisplay_setDiag (d : List DiagEvent) : HiddenFromDisplay (State.setDiag · d) :=
  ⟨fun _ => rfl, fun _ => rfl, fun _ _ => rfl, fun _ _ => rfl, fun _ _ => rfl⟩

theorem beacon_setDiag_pipe (ts : Tick) (rssi : Byte) (s : State) (d : List DiagEvent) :
    (beacon ts rssi (s.setDiag d)).pipe = (beacon ts rssi s).pipe := by
  rw [beacon, beacon, apply_ite State.pipe, apply_ite State.pipe]
  rfl

/-- Settles O43: a beacon appends to the DIAG record and does not read it, and a tick does neither. -/
theorem diagDeliveryDecidesNothing : Obligations.DiagDeliveryDecidesNothing := by
  intro i s t d h
  obtain ⟨ts, rfl, rfl⟩ | ⟨ts, rssi, rfl, rfl⟩ | ⟨rfl, rfl⟩ | ⟨rfl, rfl⟩ := exec_cases h
  · exact ⟨_, rfl, rfl, rfl, rfl, rfl⟩
  · refine ⟨beacon ts rssi (s.setDiag d), rfl, beacon_setDiag_pipe ts rssi s d, ?display, ?responses, ?inbox⟩
    case display => rw [beacon_display, beacon_display]; rfl
    case responses => rw [beacon_responses, beacon_responses]; rfl
    case inbox => rw [beacon_inbox, beacon_inbox]; rfl
  · exact ⟨(displayTick s).setDiag d, congrArg Host.Outcome.next (displayTick_of_hidden (hiddenFromDisplay_setDiag d) s),
      rfl, rfl, rfl, rfl⟩
  · exact ⟨_, rfl, rfl, rfl, rfl, rfl⟩

end Sys2Proof.Machine
end

section
/-! A BCN at the grain of its sub-steps (20_memory.md R51): how many are left, what DISPLAY operations between them change,
and what the sub-steps that are left add up to. -/

namespace Sys2Proof.Machine
open Sys2Proof Sys2Proof.Safety

/-! ## DISPLAY operations leave the pipeline -/

/-- What each DISPLAY operation keeps, a list of them keeps. -/
theorem runDisplay_keeps {α : Type} (f : State → α) (h : ∀ (d : DisplayOp) (s : State), f (d.run s) = f s)
    (ds : List DisplayOp) (s : State) : f (runDisplay ds s) = f s := by
  induction ds generalizing s with
  | nil => rfl
  | cons d ds ih => exact (ih (d.run s)).trans (h d s)

@[simp] theorem runDisplay_log (ds : List DisplayOp) (s : State) : (runDisplay ds s).pipe.log = s.pipe.log :=
  runDisplay_keeps (fun s => s.pipe.log) (fun d s => by cases d <;> simp [DisplayOp.run, readEstimate]) ds s

@[simp] theorem runDisplay_minw (ds : List DisplayOp) (s : State) : (runDisplay ds s).pipe.minw = s.pipe.minw :=
  runDisplay_keeps (fun s => s.pipe.minw) (fun d s => by cases d <;> simp [DisplayOp.run, readEstimate]) ds s

@[simp] theorem runDisplay_est (ds : List DisplayOp) (s : State) : (runDisplay ds s).pipe.est = s.pipe.est :=
  runDisplay_keeps (fun s => s.pipe.est) (fun d s => by cases d <;> simp [DisplayOp.run, readEstimate]) ds s

theorem runDisplay_append (ds ds' : List DisplayOp) (s : State) :
    runDisplay (ds ++ ds') s = runDisplay ds' (runDisplay ds s) :=
  List.foldl_append ..

/-! ## One sub-step -/

theorem substep_est (g : Stage) (s : State) :
    (substep g s).2.pipe.est = s.pipe.est ∨ ∃ est, g = .publish est ∧ (substep g s).2.pipe.est = est := by
  cases g with
  | publish est => exact .inr ⟨est, rfl, rfl⟩
  | magnitude | logPush | elapsed | trigger | minScan | logDrain | minwPush | mean | minwTrim | diag | done =>
    exact .inl rfl

/-- Settles O48: DISPLAY operations do not write EST, and of the sub-steps only the store does. -/
theorem estimateMovesOnlyAtTheStore : Obligations.EstimateMovesOnlyAtTheStore := by
  intro g ds s
  rw [← runDisplay_est ds s]
  exact substep_est g (runDisplay ds s)

theorem stageBounds_substep {g : Stage} {s : State} (h : StageBounds g s) :
    StageBounds (substep g s).1 (substep g s).2 := by
  obtain ⟨hlog, hminw⟩ := h
  cases g with
  | logPush ts mag => exact ⟨length_logPush_le _ hlog, hminw⟩
  | trigger e =>
    rw [substep]
    split <;> exact ⟨hlog, hminw⟩
  | logDrain m n =>
    refine ⟨?_, hminw⟩
    rw [substep, setLog_log, logDrain_eq_drop]
    exact (List.drop_sublist _ _).length_le.trans hlog
  | minwPush m =>
    refine ⟨hlog, ?_⟩
    exact (length_minwPush s.pipe.minw m).trans_le (Nat.succ_le_succ hminw)
  | minwTrim est => exact ⟨hlog, length_minwTrim_le hminw⟩
  | magnitude | elapsed | minScan | mean | publish | diag | done => exact ⟨hlog, hminw⟩

/-- Settles O49: the push to LOG evicts from a full log, and the trim of MINW follows its push. -/
theorem storageBoundsBetweenSubsteps : Obligations.StorageBoundsBetweenSubsteps := by
  intro g ds s h
  apply stageBounds_substep
  simpa only [StageBounds, runDisplay_log, runDisplay_minw] using h

/-- Every sub-step but the store is hidden from DISPLAY. -/
theorem hiddenFromDisplay_substep {g : Stage} (hg : ∀ est, g ≠ .publish est) :
    HiddenFromDisplay fun s => (substep g s).2 := by
  cases g with
  | publish est => exact absurd rfl (hg est)
  | magnitude | logPush | elapsed | trigger | minScan | logDrain | minwPush | mean | minwTrim | diag | done =>
    exact ⟨fun _ => rfl, fun _ => rfl, fun _ _ => rfl, fun _ _ => rfl, fun _ _ => rfl⟩

theorem substep_stage_runDisplay (g : Stage) (ds : List DisplayOp) (s : State) :
    (substep g (runDisplay ds s)).1 = (substep g s).1 := by
  cases g <;> simp [substep]

/-- Every sub-step but the store commutes with DISPLAY operations. -/
theorem substep_runDisplay {g : Stage} (hg : ∀ est, g ≠ .publish est) (ds : List DisplayOp) (s : State) :
    substep g (runDisplay ds s) = ((substep g s).1, runDisplay ds (substep g s).2) :=
  Prod.ext (substep_stage_runDisplay g ds s) (runDisplay_of_hidden (hiddenFromDisplay_substep hg) ds s).symm

/-! ## The sub-steps that are left -/

/-- How many sub-steps the longest way to the end has. -/
def Stage.remaining (g : Stage) : Nat :=
  match g with
  | .magnitude _ _ => 11
  | .logPush _ _ => 10
  | .elapsed _ => 9
  | .trigger _ => 8
  | .minScan => 7
  | .logDrain _ _ => 6
  | .minwPush _ => 5
  | .mean => 4
  | .minwTrim _ => 3
  | .publish _ => 2
  | .diag _ => 1
  | .done => 0

theorem Stage.remaining_le (g : Stage) : g.remaining ≤ 11 := by
  cases g <;> simp [Stage.remaining]

theorem Stage.eq_done_of_remaining {g : Stage} (h : g.remaining = 0) : g = .done := by
  cases g with
  | done => rfl
  | magnitude | logPush | elapsed | trigger | minScan | logDrain | minwPush | mean | minwTrim | publish | diag => cases h

theorem remaining_substep_le (g : Stage) (s : State) : (substep g s).1.remaining ≤ g.remaining - 1 := by
  cases g with
  | trigger e =>
    rw [substep]
    split <;> simp [Stage.remaining]
  | magnitude | logPush | elapsed | minScan | logDrain | minwPush | mean | minwTrim | publish | diag | done =>
    exact le_rfl

theorem runPreempted_cons (ds : List DisplayOp) (sched : List (List DisplayOp)) (g : Stage) (s : State) :
    runPreempted (ds :: sched) g s =
      runPreempted sched (substep g (runDisplay ds s)).1 (substep g (runDisplay ds s)).2 := rfl

theorem remaining_runPreempted_le (sched : List (List DisplayOp)) (g : Stage) (s : State) :
    (runPreempted sched g s).1.remaining ≤ g.remaining - sched.length := by
  induction sched generalizing g s with
  | nil => exact le_rfl
  | cons ds sched ih =>
    have hstep := remaining_substep_le g (runDisplay ds s)
    have hrest := ih (substep g (runDisplay ds s)).1 (substep g (runDisplay ds s)).2
    rw [runPreempted_cons, List.length_cons]
    omega

theorem runPreempted_done {sched : List (List DisplayOp)} (hlen : 11 ≤ sched.length) (g : Stage) (s : State) :
    (runPreempted sched g s).1 = .done := by
  apply Stage.eq_done_of_remaining
  have hle := remaining_runPreempted_le sched g s
  have hstage := g.remaining_le
  omega

/-- Settles O47: every sub-step leaves one fewer, and eleven are the most. -/
theorem everyBeaconEnds : Obligations.EveryBeaconEnds :=
  fun _ _ _ _ hlen => ⟨_, Prod.ext (runPreempted_done hlen _ _) rfl⟩

/-! ## What the sub-steps that are left add up to -/

/-- The state that the BCN leaves when nothing preempts it any more. -/
def Stage.finish (g : Stage) (s : State) : State := (runPreempted (List.replicate 11 []) g s).2

/-- A twelfth sub-step finds the BCN ended. -/
theorem finish_substep (g : Stage) (s : State) : (substep g s).1.finish (substep g s).2 = g.finish s := by
  have hdone := runPreempted_done (List.length_replicate (n := 11) (a := ([] : List DisplayOp))).ge g s
  calc (substep g s).1.finish (substep g s).2
      = (runPreempted (List.replicate 11 [] ++ [[]]) g s).2 := rfl
    _ = (substep (runPreempted (List.replicate 11 []) g s).1 (runPreempted (List.replicate 11 []) g s).2).2 := by
        rw [runPreempted, List.foldl_concat]; rfl
    _ = g.finish s := by rw [hdone]; rfl

theorem finish_magnitude (ts : Tick) (rssi : Byte) (s : State) :
    (Stage.magnitude ts rssi).finish s = beacon ts rssi s := by
  obtain ⟨htrigger, hb⟩ | ⟨htrigger, hb⟩ := beacon_cases ts rssi s
  · rw [hb, ← finish_substep, ← finish_substep, ← finish_substep, ← finish_substep]
    simp only [substep, setLog_log, htrigger]
    rfl
  · rw [hb, ← finish_substep, ← finish_substep, ← finish_substep, ← finish_substep]
    simp only [substep, setLog_log, htrigger]
    rfl

/-- Settles O46: the sub-steps write in the order of the pseudocode of R81. -/
theorem substepsMakeUpTheBeacon : Obligations.SubstepsMakeUpTheBeacon := by
  rintro ts rssi s _ ⟨⟩
  exact Prod.ext (runPreempted_done List.length_replicate.ge _ s) (finish_magnitude ts rssi s)

end Sys2Proof.Machine
end

section
/-! Serial order (20_memory.md R51): a BCN in progress, preempted by DISPLAY, against the serial orders of the operations issued.
A DISPLAY operation that comes before the store of EST is one that came before the whole BCN; one that comes after it, one that
came after the whole BCN. -/

namespace Sys2Proof.Machine
open Sys2Proof Sys2Proof.Safety

/-! ## Operations as updates of the state -/

/-- The next state of an operation, which is total (60_exceptions.md R140). -/
def effect (i : Instr) (s : State) : State :=
  match i with
  | .bcnx _ => s
  | .bcn ts rssi => beacon ts rssi s
  | .dtick => displayTick s
  | .rdest => readEstimate s

theorem exec_eq_effect (i : Instr) (s : State) : exec i s = .next (effect i s) := by
  cases i <;> rfl

/-- Operations one after the other. -/
def runAll (is : List Instr) (s : State) : State := is.foldl (fun s i => effect i s) s

theorem execAll_eq_runAll (is : List Instr) (s : State) : execAll is s = .next (runAll is s) := by
  induction is generalizing s with
  | nil => rfl
  | cons i is ih => rw [execAll, exec_eq_effect]; exact ih (effect i s)

theorem runAll_concat (is : List Instr) (i : Instr) (s : State) : runAll (is ++ [i]) s = effect i (runAll is s) :=
  List.foldl_concat ..

theorem runAll_append (is js : List Instr) (s : State) : runAll (is ++ js) s = runAll js (runAll is s) :=
  List.foldl_append ..

/-- The DISPLAY operation as one of the four operations. -/
def DisplayOp.instr (d : DisplayOp) : Instr :=
  match d with
  | .dtick => .dtick
  | .rdest => .rdest

@[simp] theorem portOf_bcn (ts : Tick) (rssi : Byte) : portOf (.bcn ts rssi) = .collector := rfl

@[simp] theorem portOf_bcnx (ts : Tick) : portOf (.bcnx ts) = .collector := rfl

@[simp] theorem portOf_instr (d : DisplayOp) : portOf d.instr = .reader := by
  cases d <;> rfl

theorem runAll_map_instr (ds : List DisplayOp) (s : State) : runAll (ds.map DisplayOp.instr) s = runDisplay ds s := by
  rw [runAll, List.foldl_map]
  congr
  funext s d
  cases d <;> rfl

/-! ## The order at each port -/

/-- Both lists have the same operations of each port, in the same order. -/
def SamePortOrder (is js : List Instr) : Prop :=
  ∀ p : Port, is.filter (fun i => portOf i == p) = js.filter (fun i => portOf i == p)

@[simp] theorem filter_collector_map_instr (ds : List DisplayOp) :
    (ds.map DisplayOp.instr).filter (fun i => portOf i == .collector) = [] := by
  simp [List.filter_map]

@[simp] theorem filter_reader_map_instr (ds : List DisplayOp) :
    (ds.map DisplayOp.instr).filter (fun i => portOf i == .reader) = ds.map DisplayOp.instr := by
  simp

theorem SamePortOrder.append {is js : List Instr} (h : SamePortOrder is js) (ks : List Instr) :
    SamePortOrder (is ++ ks) (js ++ ks) :=
  fun p => by rw [List.filter_append, List.filter_append, h p]

/-- A DISPLAY operation may change places with a BCN. -/
theorem SamePortOrder.append_before_bcn {is js : List Instr} {ts : Tick} {rssi : Byte}
    (h : SamePortOrder (is ++ [.bcn ts rssi]) js) (ds : List DisplayOp) :
    SamePortOrder (is ++ ds.map DisplayOp.instr ++ [.bcn ts rssi]) (js ++ ds.map DisplayOp.instr) := by
  intro p
  have hp := h p
  cases p <;> simp_all

/-! ## The serial order so far -/

/-- From `s`, with the operations issued that `issued` lists, the machine has come to `u` with the BCN in progress at `g`, and
there is a serial order of them that ends where the BCN will end. -/
inductive SerialSoFar (issued : List Instr) (s : State) (g : Stage) (u : State) : Prop where
  /-- The BCN will not store EST any more: its place is fixed, and DISPLAY operations to come stand behind it. -/
  | placed (is : List Instr) (order : SamePortOrder is issued) (stage : g = .done ∨ ∃ est, g = .diag est)
      (result : runAll is s = g.finish u)
  /-- The BCN is the last of the serial order, also behind any DISPLAY operations to come. -/
  | pending (is : List Instr) (ts : Tick) (rssi : Byte) (order : SamePortOrder (is ++ [.bcn ts rssi]) issued)
      (result : ∀ ds, beacon ts rssi (runDisplay ds (runAll is s)) = g.finish (runDisplay ds u))

theorem runDisplay_emitDiag (ds : List DisplayOp) (s : State) (est : Byte) :
    runDisplay ds (s.emitDiag est) = (runDisplay ds s).emitDiag est :=
  runDisplay_of_hidden (f := (State.emitDiag · est))
    ⟨fun _ => rfl, fun _ => rfl, fun _ _ => rfl, fun _ _ => rfl, fun _ _ => rfl⟩ ds s

section
variable {issued : List Instr} {s : State} {g : Stage} {u : State}

theorem SerialSoFar.start (s : State) : SerialSoFar [] s .done s :=
  .placed [] (fun _ => rfl) (.inl rfl) rfl

/-- With no BCN in progress there is a serial order that ends here. -/
theorem SerialSoFar.exists_order (h : SerialSoFar issued s .done u) :
    ∃ is, SamePortOrder is issued ∧ runAll is s = u := by
  cases h with
  | placed is order _ result => exact ⟨is, order, result⟩
  | pending is ts rssi order result =>
    refine ⟨is ++ [.bcn ts rssi], order, ?_⟩
    rw [runAll_concat]
    exact result []

theorem SerialSoFar.issue_bcn (h : SerialSoFar issued s .done u) (ts : Tick) (rssi : Byte) :
    SerialSoFar (issued ++ [.bcn ts rssi]) s (.magnitude ts rssi) u := by
  obtain ⟨is, order, rfl⟩ := h.exists_order
  exact .pending is ts rssi (order.append _) fun ds => (finish_magnitude ts rssi _).symm

theorem SerialSoFar.issue_bcnx (h : SerialSoFar issued s .done u) (ts : Tick) :
    SerialSoFar (issued ++ [.bcnx ts]) s .done u := by
  obtain ⟨is, order, rfl⟩ := h.exists_order
  exact .placed (is ++ [.bcnx ts]) (order.append _) (.inl rfl) (runAll_append ..)

theorem SerialSoFar.run_display (h : SerialSoFar issued s g u) (ds : List DisplayOp) :
    SerialSoFar (issued ++ ds.map DisplayOp.instr) s g (runDisplay ds u) := by
  cases h with
  | placed is order stage result =>
    refine .placed (is ++ ds.map DisplayOp.instr) (order.append _) stage ?_
    rw [runAll_append, result, runAll_map_instr]
    obtain rfl | ⟨est, rfl⟩ := stage
    · rfl
    · exact runDisplay_emitDiag ds u est
  | pending is ts rssi order result =>
    refine .pending (is ++ ds.map DisplayOp.instr) ts rssi (order.append_before_bcn ds) fun ds' => ?_
    rw [runAll_append, runAll_map_instr, ← runDisplay_append, ← runDisplay_append, result]

/-- The store fixes the place of the BCN; every other sub-step commutes with the DISPLAY operations to come. -/
theorem SerialSoFar.substep (h : SerialSoFar issued s g u) :
    SerialSoFar issued s (substep g u).1 (substep g u).2 := by
  cases h with
  | placed is order stage result =>
    refine .placed is order (.inl ?_) (result.trans (finish_substep g u).symm)
    obtain rfl | ⟨est, rfl⟩ := stage <;> rfl
  | pending is ts rssi order result =>
    by_cases hstore : ∃ est, g = .publish est
    · obtain ⟨est, rfl⟩ := hstore
      refine .placed (is ++ [.bcn ts rssi]) order (.inr ⟨est, rfl⟩) ?_
      exact (runAll_concat ..).trans ((result []).trans (finish_substep _ u).symm)
    · refine .pending is ts rssi order fun ds => ?_
      have hcomm := substep_runDisplay (not_exists.1 hstore) ds u
      rw [result, ← finish_substep, hcomm]
end

/-! ## A preempted BCN (R51) -/

theorem SerialSoFar.runPreempted {issued : List Instr} {s : State} {g : Stage} {u : State}
    (h : SerialSoFar issued s g u) (sched : List (List DisplayOp)) :
    SerialSoFar (issued ++ sched.flatten.map DisplayOp.instr) s (runPreempted sched g u).1
      (runPreempted sched g u).2 := by
  induction sched generalizing issued g u with
  | nil => rwa [List.flatten_nil, List.map_nil, List.append_nil]
  | cons ds sched ih =>
    rw [runPreempted_cons, List.flatten_cons, List.map_append, ← List.append_assoc]
    exact ih (h.run_display ds).substep

/-- A serial order of one BCN and DISPLAY operations is some of these, the BCN and the others. -/
theorem exists_split_of_samePortOrder {is : List Instr} {ts : Tick} {rssi : Byte} {ds : List DisplayOp}
    (h : SamePortOrder is (.bcn ts rssi :: ds.map DisplayOp.instr)) :
    ∃ before after, before ++ after = ds ∧
      is = before.map DisplayOp.instr ++ .bcn ts rssi :: after.map DisplayOp.instr := by
  have hcollector : is.filter (fun i => portOf i == .collector) = [.bcn ts rssi] :=
    (h .collector).trans (congrArg (Instr.bcn ts rssi :: ·) (filter_collector_map_instr ds))
  obtain ⟨xs, ys, rfl, hxs, -, hys⟩ := List.filter_eq_cons_iff.1 hcollector
  rw [List.filter_eq_nil_iff] at hys
  have hreader (i : Instr) (hi : ¬ (portOf i == .collector) = true) : (portOf i == .reader) = true := by
    cases hport : portOf i with
    | collector => exact absurd (beq_iff_eq.2 hport) hi
    | reader => rfl
  have hrest : ds.map DisplayOp.instr = xs ++ ys := by
    calc ds.map DisplayOp.instr = (xs ++ .bcn ts rssi :: ys).filter (fun i => portOf i == .reader) :=
          ((h .reader).trans (filter_reader_map_instr ds)).symm
      _ = xs ++ ys := by
          rw [List.filter_append, List.filter_eq_self.2 fun i hi => hreader i (hxs i hi)]
          exact congrArg (xs ++ ·) (List.filter_eq_self.2 fun i hi => hreader i (hys i hi))
  obtain ⟨before, after, rfl, rfl, rfl⟩ := List.map_eq_append_iff.1 hrest
  exact ⟨before, after, rfl, rfl⟩

/-- Settles O45: the serial order so far, followed through the schedule, and split at the BCN. -/
theorem preemptedBeaconIsSerial : Obligations.PreemptedBeaconIsSerial := by
  intro sched ts rssi s t hend
  have hserial := ((SerialSoFar.start s).issue_bcn ts rssi).runPreempted sched
  rw [hend] at hserial
  obtain ⟨is, horder, rfl⟩ := hserial.exists_order
  obtain ⟨before, after, hsched, rfl⟩ := exists_split_of_samePortOrder horder
  refine ⟨before, after, _, hsched, rfl, ?_⟩
  rw [runAll_append, runAll_map_instr, ← runAll_map_instr after]
  rfl

end Sys2Proof.Machine
end

section
/-! The three agents at sub-steps (00_scope.md R8): DISPLAY operations in progress, the reset event at any point, and whole
interleavings against serial orders. -/

namespace Sys2Proof.Machine
open Sys2Proof Sys2Proof.Safety

/-! ## Which moves there are (60_exceptions.md R143) -/

/-- COLLECTOR waits for DISPLAY. -/
theorem move_of_reader_busy {c : Running} {m : Move} (hagent : m.agent = .collector) (h : c.reader ≠ .done) :
    move c m = none :=
  if_neg (hagent ▸ (admits_collector_iff c).not.2 h)

theorem busy_collector_iff (c : Running) : c.busy .collector = true ↔ c.collector ≠ .done :=
  decide_eq_true_iff

theorem busy_display_iff (c : Running) : c.busy .display = true ↔ c.reader ≠ .done :=
  decide_eq_true_iff

/-- COLLECTOR issues no operation over its own. -/
theorem move_issue_of_collector_busy {c : Running} (h : c.collector ≠ .done) (ts : Tick) (rssi : Byte) :
    move c (.bcn ts rssi) = none ∧ move c (.bcnx ts) = none := by
  simp [move, (busy_collector_iff c).2 h]

theorem move_issue (c : Running) (d : DisplayOp) :
    move c (.issue d) = if c.reader = .done then some { c with reader := .load d } else none := by
  by_cases h : c.reader = .done <;> simp [move, Move.agent, admits_display, Running.busy, h]

theorem move_reader {c : Running} (h : c.reader ≠ .done) :
    move c .reader =
      some { c with reader := (readerSubstep c.reader c.state).1, state := (readerSubstep c.reader c.state).2 } := by
  simp [move, Move.agent, admits_display, (busy_display_iff c).2 h]

theorem move_collector {c : Running} (hreader : c.reader = .done) (h : c.collector ≠ .done) :
    move c .collector =
      some { c with collector := (substep c.collector c.state).1, state := (substep c.collector c.state).2 } := by
  simp [move, Move.agent, (admits_collector_iff c).2 hreader, (busy_collector_iff c).2 h]

/-- Settles O54, one rule per kind of move. -/
theorem priorityOrdersTheAgents : Obligations.PriorityOrdersTheAgents := by
  intro c
  refine ⟨fun h ts rssi => ?wait, fun h => move_issue_of_collector_busy h, fun h d => ?own, fun h d => ?preempt,
    fun hreader h => ⟨_, move_collector hreader h, hreader⟩⟩
  case wait => exact ⟨move_of_reader_busy rfl h, move_of_reader_busy rfl h, move_of_reader_busy rfl h⟩
  case own => rw [move_issue, if_neg h]
  case preempt => rw [move_issue, if_pos h]

/-! ## The sub-steps of a DISPLAY operation -/

/-- Steps 3 and 4 of a tick and its response. -/
def showAndRespond (i : Index) (s : State) : State :=
  ((showIndex i s).emitDisplay .mux).respond (.dtick (dtickResponse (isChanged s.pipe.shown i) i))

/-- The state that the DISPLAY operation leaves; COLLECTOR waits until it has ended. -/
def ReaderStage.finish (h : ReaderStage) (s : State) : State :=
  match h with
  | .load d => d.run s
  | .clamp e => showAndRespond (Sys2Proof.Machine.clamp e) s
  | .showIndex i => showAndRespond i s
  | .mux loaded i => (s.emitDisplay .mux).respond (.dtick (dtickResponse loaded i))
  | .respond r => s.respond r
  | .done => s

theorem finish_readerSubstep (h : ReaderStage) (s : State) :
    (readerSubstep h s).1.finish (readerSubstep h s).2 = h.finish s := by
  cases h with
  | load d => cases d <;> rfl
  | clamp | showIndex | mux | respond | done => rfl

theorem runMoves_dtick (g : Stage) (s : State) :
    runMoves (.issue .dtick :: List.replicate 5 .reader) { collector := g, reader := .done, state := s } =
      some { collector := g, reader := .done, state := displayTick s } := by
  simp only [List.replicate, runMoves, move_issue, move_reader, readerSubstep, if_true, Option.bind_some, ne_eq,
    reduceCtorEq, not_false_eq_true]
  rfl

theorem runMoves_rdest (g : Stage) (s : State) :
    runMoves (.issue .rdest :: List.replicate 2 .reader) { collector := g, reader := .done, state := s } =
      some { collector := g, reader := .done, state := readEstimate s } := by
  simp only [List.replicate, runMoves, move_issue, move_reader, readerSubstep, if_true, Option.bind_some, ne_eq,
    reduceCtorEq, not_false_eq_true]
  rfl

/-- Settles O53, sub-step by sub-step. -/
theorem readerSubstepsMakeUpTheOperation : Obligations.ReaderSubstepsMakeUpTheOperation := by
  refine fun g s t => ⟨?_, ?_⟩
  · rintro ⟨⟩
    exact runMoves_dtick g s
  · rintro ⟨⟩
    exact runMoves_rdest g s

/-! ## The reset event (70_reset_and_hazards.md R160) -/

theorem resetEvent_substep (g : Stage) (s : State) : resetEvent (substep g s).2 = resetEvent s := by
  cases g <;> rfl

theorem resetEvent_readerSubstep (h : ReaderStage) (s : State) : resetEvent (readerSubstep h s).2 = resetEvent s := by
  cases h with
  | load d => cases d <;> rfl
  | showIndex i => rw [readerSubstep, showIndex_eq]; rfl
  | clamp | mux | respond | done => rfl

theorem resetEvent_move {c d : Running} {m : Move} (h : move c m = some d) : resetEvent d.state = resetEvent c.state := by
  obtain ⟨ts, rssi, -, -, -, rfl⟩ | ⟨ts, -, -, -, rfl⟩ | ⟨-, -, -, rfl⟩ | ⟨o, -, -, rfl⟩ | ⟨-, -, rfl⟩ | ⟨-, rfl⟩ :=
    move_cases h
  · rfl
  · rfl
  · exact resetEvent_substep c.collector c.state
  · rfl
  · exact resetEvent_readerSubstep c.reader c.state
  · rfl

theorem resetEvent_runMoves {ms : List Move} {c d : Running} (h : runMoves ms c = some d) :
    resetEvent d.state = resetEvent c.state := by
  induction ms generalizing c with
  | nil => obtain rfl : c = d := Option.some.inj h; rfl
  | cons m ms ih =>
    obtain ⟨c', hmove, hrest⟩ := Option.bind_eq_some_iff.1 h
    exact (ih hrest).trans (resetEvent_move hmove)

theorem resetEvent_effect (i : Instr) (s : State) : resetEvent (effect i s) = resetEvent s := by
  cases i with
  | bcn ts rssi => simp [resetEvent, effect]
  | dtick => simp [resetEvent, effect]
  | bcnx | rdest => rfl

/-- Settles O51: no sub-step and no operation writes what the reset event reads. -/
theorem resetPreemptsEveryOperation : Obligations.ResetPreemptsEveryOperation := by
  constructor
  · intro ms c d h
    rw [move_reset, resetEvent_runMoves h]
  · intro i s t h
    obtain rfl : effect i s = t := Host.Outcome.next.inj ((exec_eq_effect i s).symm.trans h)
    exact resetEvent_effect i s

/-! ## Whole interleavings (R51) -/

theorem operation_issue (d : DisplayOp) : (Move.issue d).operation = some d.instr := by
  cases d <;> rfl

theorem filterMap_operation_cons (m : Move) (ms : List Move) :
    (m :: ms).filterMap Move.operation = m.operation.toList ++ ms.filterMap Move.operation := by
  cases h : m.operation <;> simp [h]

/-- Every move but the reset event keeps a serial order of the operations issued so far. -/
theorem SerialSoFar.move {issued : List Instr} {s : State} {c d : Running} {m : Move}
    (h : SerialSoFar issued s c.collector (c.reader.finish c.state)) (hreset : m ≠ .reset) (hmove : move c m = some d) :
    SerialSoFar (issued ++ m.operation.toList) s d.collector (d.reader.finish d.state) := by
  obtain ⟨ts, rssi, rfl, hc, -, rfl⟩ | ⟨ts, rfl, hc, -, rfl⟩ | ⟨rfl, -, hr, rfl⟩ | ⟨o, rfl, hr, rfl⟩ | ⟨rfl, -, rfl⟩ |
    ⟨rfl, -⟩ := move_cases hmove
  · exact (hc ▸ h).issue_bcn ts rssi
  · rw [hc] at h ⊢
    exact h.issue_bcnx ts
  · rw [hr] at h ⊢
    exact (List.append_nil issued).symm ▸ h.substep
  · rw [hr] at h
    rw [operation_issue]
    exact h.run_display [o]
  · rw [finish_readerSubstep]
    exact (List.append_nil issued).symm ▸ h
  · exact absurd rfl hreset

theorem SerialSoFar.runMoves {issued : List Instr} {s : State} {c d : Running} {ms : List Move}
    (h : SerialSoFar issued s c.collector (c.reader.finish c.state)) (hreset : .reset ∉ ms)
    (hmoves : runMoves ms c = some d) :
    SerialSoFar (issued ++ ms.filterMap Move.operation) s d.collector (d.reader.finish d.state) := by
  induction ms generalizing issued c with
  | nil =>
    obtain rfl : c = d := Option.some.inj hmoves
    rwa [List.filterMap_nil, List.append_nil]
  | cons m ms ih =>
    obtain ⟨c', hmove, hrest⟩ := Option.bind_eq_some_iff.1 hmoves
    obtain ⟨hm, hms⟩ := not_or.1 (List.mem_cons.not.1 hreset)
    rw [filterMap_operation_cons, ← List.append_assoc]
    exact ih (h.move (fun h => hm h.symm) hmove) hms hrest

/-- Settles O52: the serial order so far, followed through the moves from idle to idle. -/
theorem interleavedAgentsAreSerial : Obligations.InterleavedAgentsAreSerial := by
  intro ms s t hreset hmoves
  obtain ⟨is, horder, hrun⟩ := ((SerialSoFar.start s).runMoves (c := Running.idle s) hreset hmoves).exists_order
  exact ⟨is, (execAll_eq_runAll is s).trans (congrArg Host.Outcome.next hrun), horder⟩

end Sys2Proof.Machine
end

section
/-! The textual form (30_encoding.md R68): how a line falls into its name and its argument text, what the numerals are read
as, and the text of each line. -/

namespace Sys2Proof
open Sys2Proof.Safety

/-! ## Blanks at the ends -/

/-- The text begins and ends with a character that is no blank. -/
structure Unpadded (cs : List Char) : Prop where
  head : ∃ c, cs.head? = some c ∧ isBlank c = false
  last : ∃ c, cs.getLast? = some c ∧ isBlank c = false

theorem Unpadded.append {xs ys : List Char} (hx : Unpadded xs) (hy : Unpadded ys) (mid : List Char) :
    Unpadded (xs ++ mid ++ ys) := by
  obtain ⟨c, hc, hblank⟩ := hx.head
  obtain ⟨d, hd, hblank'⟩ := hy.last
  exact ⟨⟨c, by simp [hc], hblank⟩, ⟨d, by simp [hd], hblank'⟩⟩

theorem Unpadded.reverse {cs : List Char} (h : Unpadded cs) : Unpadded cs.reverse :=
  ⟨by simpa using h.last, by simpa using h.head⟩

theorem dropWhile_isBlank {pad cs : List Char} (hpad : ∀ c ∈ pad, isBlank c = true) (h : Unpadded cs) (rest : List Char) :
    (pad ++ (cs ++ rest)).dropWhile isBlank = cs ++ rest := by
  obtain ⟨c, hc, hblank⟩ := h.head
  obtain ⟨cs, rfl⟩ := List.head?_eq_some_iff.1 hc
  rw [List.dropWhile_append_of_pos hpad, List.cons_append, List.dropWhile_cons_of_neg (by simp [hblank])]

/-- Blanks at both ends go, and nothing else. -/
theorem trimBlanks_padded {pad cs trail : List Char} (hpad : ∀ c ∈ pad, isBlank c = true) (h : Unpadded cs)
    (htrail : ∀ c ∈ trail, isBlank c = true) : trimBlanks (pad ++ cs ++ trail) = cs := by
  have hback := dropWhile_isBlank (pad := trail.reverse) (by simpa using htrail) h.reverse []
  rw [List.append_nil] at hback
  rw [trimBlanks, List.append_assoc, dropWhile_isBlank hpad h, List.reverse_append, hback, List.reverse_reverse]

theorem trimBlanks_front {pad cs : List Char} (hpad : ∀ c ∈ pad, isBlank c = true) (h : Unpadded cs) :
    trimBlanks (pad ++ cs) = cs := by
  simpa using trimBlanks_padded hpad h (List.forall_mem_nil _)

/-! ## Words -/

/-- A character that no rule of R68 takes for a separator: no blank, no comma and not the sign of a comment. -/
def isPlain (c : Char) : Bool := !isBlank c && c != ',' && c != ';'

theorem isPlain_iff (c : Char) :
    isPlain c = true ↔ (!isBlank c) = true ∧ (c != ',') = true ∧ (c != ';') = true := by
  simp only [isPlain, Bool.and_eq_true, and_assoc]

/-- A text of one plain character or more. -/
structure PlainText (cs : List Char) : Prop where
  ne_nil : cs ≠ []
  plain : ∀ c ∈ cs, isPlain c = true

theorem plainText_of_all {cs : List Char} (hne : cs ≠ []) (h : cs.all isPlain = true) : PlainText cs :=
  ⟨hne, List.all_eq_true.1 h⟩

section
variable {cs : List Char} (h : PlainText cs) {c : Char} (hc : c ∈ cs)
include h

theorem PlainText.unpadded : Unpadded cs := by
  have hblank (c : Char) (hc : c ∈ cs) : isBlank c = false :=
    Bool.not_eq_true' _ ▸ ((isPlain_iff c).1 (h.plain c hc)).1
  exact ⟨⟨cs.head h.ne_nil, List.head?_eq_some_head _, hblank _ (List.head_mem _)⟩,
    ⟨cs.getLast h.ne_nil, List.getLast?_eq_some_getLast _, hblank _ (List.getLast_mem _)⟩⟩

include hc

theorem PlainText.not_blank : (!isBlank c) = true :=
  ((isPlain_iff c).1 (h.plain c hc)).1

theorem PlainText.not_comma : (c != ',') = true :=
  ((isPlain_iff c).1 (h.plain c hc)).2.1

theorem PlainText.not_comment : (c != ';') = true :=
  ((isPlain_iff c).1 (h.plain c hc)).2.2
end

theorem not_comment_of_isBlank {c : Char} (h : isBlank c = true) : (c != ';') = true := by
  rw [bne_iff_ne]
  rintro rfl
  exact absurd h (by decide)

/-! ## The parts of a line -/

/-- The line without its comment and without the blanks at its ends. -/
def lineBody (cs : List Char) : List Char := trimBlanks (cs.takeWhile (· != ';'))

/-- The first word of the line. -/
def lineName (cs : List Char) : List Char := (lineBody cs).takeWhile fun c => !isBlank c

/-- What stands behind the first word. -/
def lineArgs (cs : List Char) : List Char := trimBlanks ((lineBody cs).dropWhile fun c => !isBlank c)

/-- The end of a line: nothing or a comment. -/
def IsTail (tail : List Char) : Prop := tail = [] ∨ ∃ comment, tail = ';' :: comment

section
variable {trail tail : List Char} (htrail : ∀ c ∈ trail, isBlank c = true) (htail : IsTail tail)
include htrail htail

theorem lineBody_eq {core : List Char} (hcore : Unpadded core) (hcomment : ∀ c ∈ core, (c != ';') = true) :
    lineBody (core ++ trail ++ tail) = core := by
  have hkeep : ∀ c ∈ core ++ trail, (c != ';') = true := by
    intro c hc
    obtain hc | hc := List.mem_append.1 hc
    · exact hcomment c hc
    · exact not_comment_of_isBlank (htrail c hc)
  have hstop : tail.takeWhile (· != ';') = [] := by
    obtain rfl | ⟨comment, rfl⟩ := htail <;> rfl
  rw [lineBody, List.takeWhile_append_of_pos hkeep, hstop, List.append_nil]
  simpa using trimBlanks_padded (pad := []) (List.forall_mem_nil _) hcore htrail

theorem line_of_name {name : List Char} (hname : PlainText name) :
    lineName (name ++ trail ++ tail) = name ∧ lineArgs (name ++ trail ++ tail) = [] := by
  rw [lineName, lineArgs, lineBody_eq htrail htail hname.unpadded fun _ => hname.not_comment,
    List.takeWhile_eq_self_iff.2 fun _ => hname.not_blank, List.dropWhile_eq_nil_iff.2 fun _ => hname.not_blank]
  exact ⟨rfl, rfl⟩

theorem line_of_name_args {name gap args : List Char} (hname : PlainText name) (hgap : ∀ c ∈ gap, isBlank c = true)
    (hne : gap ≠ []) (hargs : Unpadded args) (hcomment : ∀ c ∈ args, (c != ';') = true) :
    lineName (name ++ gap ++ args ++ trail ++ tail) = name ∧ lineArgs (name ++ gap ++ args ++ trail ++ tail) = args := by
  have hkeep : ∀ c ∈ name ++ gap ++ args, (c != ';') = true := by
    simp only [List.mem_append]
    rintro c ((hc | hc) | hc)
    · exact hname.not_comment hc
    · exact not_comment_of_isBlank (hgap c hc)
    · exact hcomment c hc
  obtain ⟨b, gap, rfl⟩ := List.exists_cons_of_ne_nil hne
  have hstop : ¬ (fun c => !isBlank c) b = true := by simp [hgap b List.mem_cons_self]
  rw [lineName, lineArgs, lineBody_eq htrail htail (hname.unpadded.append hargs _) hkeep, List.append_assoc,
    List.takeWhile_append_of_pos fun _ => hname.not_blank, List.dropWhile_append_of_pos fun _ => hname.not_blank,
    List.cons_append, List.takeWhile_cons_of_neg (p := fun c => !isBlank c) hstop,
    List.dropWhile_cons_of_neg (p := fun c => !isBlank c) hstop, List.append_nil]
  exact ⟨rfl, trimBlanks_front hgap hargs⟩
end

/-! ## The line by its name -/

section
variable {cs : List Char}

theorem parseLine_bcn {ts r : List Char} {n : Nat} {z : Int} (hname : lineName cs = ['B', 'C', 'N'])
    (hargs : lineArgs cs = ts ++ ',' :: r) (hcomma : ∀ c ∈ ts, (c != ',') = true)
    (hts : readTs (trimBlanks ts) = some n) (hrssi : readRssi (trimBlanks r) = some z) :
    parseLine cs = some (.bcn n z) := by
  unfold lineName lineBody at hname
  unfold lineArgs lineBody at hargs
  simp only [parseLine, hname, hargs, if_true, List.takeWhile_append_of_pos hcomma, List.dropWhile_append_of_pos hcomma]
  simp [hts, hrssi]

theorem parseLine_bcnx {n : Nat} (hname : lineName cs = ['B', 'C', 'N', 'X']) (hargs : readTs (lineArgs cs) = some n) :
    parseLine cs = some (.bcnx n) := by
  unfold lineName lineBody at hname
  unfold lineArgs lineBody at hargs
  simp [parseLine, hname, hargs]

theorem parseLine_dtick (hname : lineName cs = ['D', 'T', 'I', 'C', 'K']) (hargs : lineArgs cs = []) :
    parseLine cs = some .dtick := by
  unfold lineName lineBody at hname
  unfold lineArgs lineBody at hargs
  simp [parseLine, hname, hargs]

theorem parseLine_rdest (hname : lineName cs = ['R', 'D', 'E', 'S', 'T']) (hargs : lineArgs cs = []) :
    parseLine cs = some .rdest := by
  unfold lineName lineBody at hname
  unfold lineArgs lineBody at hargs
  simp [parseLine, hname, hargs]

theorem parseLine_rst (hname : lineName cs = ['R', 'S', 'T']) (hargs : lineArgs cs = []) :
    parseLine cs = some .rst := by
  unfold lineName lineBody at hname
  unfold lineArgs lineBody at hargs
  simp [parseLine, hname, hargs]
end

/-! ## Numerals -/

/-- Digits are read from the left, each as the value that its character was written for. -/
theorem readDigits_map {α : Type} {base : Nat} {digit : Char → Option Nat} {char : α → Char} {value : α → Nat}
    (hdigit : ∀ d, digit (char d) = some (value d)) {ds : List α} (hne : ds ≠ []) :
    readDigits base digit (ds.map char) = some (ds.foldl (fun n d => base * n + value d) 0) := by
  have hfold (ds : List α) (n : Nat) :
      (ds.map char).foldl (fun acc d => acc.bind fun n => (digit d).map fun k => base * n + k) (some n) =
        some (ds.foldl (fun n d => base * n + value d) n) := by
    induction ds generalizing n with
    | nil => rfl
    | cons d ds ih => simp [hdigit, ih]
  obtain ⟨d, ds, rfl⟩ := List.exists_cons_of_ne_nil hne
  exact hfold (d :: ds) 0

theorem decDigit_decChar (d : Fin 10) : decDigit (Char.ofNat ('0'.toNat + d.val)) = some d.val := by
  decide +revert

theorem isPlain_decChar (d : Fin 10) : isPlain (Char.ofNat ('0'.toNat + d.val)) = true := by
  decide +revert

theorem hexDigit_hexChar (capital : Bool) (d : Fin 16) :
    hexDigit (if d.val < 10 then Char.ofNat ('0'.toNat + d.val)
      else Char.ofNat ((if capital then 'A' else 'a').toNat + d.val - 10)) = some d.val := by
  decide +revert

theorem isPlain_hexChar (capital : Bool) (d : Fin 16) :
    isPlain (if d.val < 10 then Char.ofNat ('0'.toNat + d.val)
      else Char.ofNat ((if capital then 'A' else 'a').toNat + d.val - 10)) = true := by
  decide +revert

section
variable {ds : List (Fin 10)}

theorem decText_ne {c : Char} (hc : ∀ d : Fin 10, Char.ofNat ('0'.toNat + d.val) ≠ c) : c ∉ decText ds := by
  rw [decText, List.mem_map]
  rintro ⟨d, -, h⟩
  exact hc d h

theorem plainText_decText (hne : ds ≠ []) : PlainText (decText ds) :=
  ⟨List.map_eq_nil_iff.not.2 hne, List.forall_mem_map.2 fun d _ => isPlain_decChar d⟩

theorem readDigits_decText (hne : ds ≠ []) : readDigits 10 decDigit (decText ds) = some (decValue ds) :=
  readDigits_map decDigit_decChar hne

/-- No decimal digit is the x of a hexadecimal numeral. -/
theorem readTs_decText (hne : ds ≠ []) : readTs (decText ds) = some (decValue ds) := by
  unfold readTs
  split
  case h_1 cs htext => exact absurd (htext ▸ by simp : 'x' ∈ decText ds) (decText_ne (by decide))
  case h_2 => exact readDigits_decText hne

/-- No decimal digit is a minus sign. -/
theorem readRssi_decText (hne : ds ≠ []) : readRssi (decText ds) = some (decValue ds : Int) := by
  unfold readRssi
  split
  case h_1 cs htext => exact absurd (htext ▸ by simp : '-' ∈ decText ds) (decText_ne (by decide))
  case h_2 => rw [readDigits_decText hne]; rfl

theorem readRssi_neg_decText (hne : ds ≠ []) : readRssi ('-' :: decText ds) = some (-(decValue ds : Int)) := by
  rw [readRssi, readDigits_decText hne]; rfl
end

theorem PlainText.cons {cs : List Char} (h : PlainText cs) {c : Char} (hc : isPlain c = true) : PlainText (c :: cs) :=
  ⟨List.cons_ne_nil c cs, List.forall_mem_cons.2 ⟨hc, h.plain⟩⟩

section
variable {hs : List (Fin 16)} (capital : Bool)

theorem plainText_hexText (hne : hs ≠ []) : PlainText (hexText capital hs) :=
  ⟨List.map_eq_nil_iff.not.2 hne, List.forall_mem_map.2 fun d _ => isPlain_hexChar capital d⟩

theorem readTs_hexText (hne : hs ≠ []) : readTs (['0', 'x'] ++ hexText capital hs) = some (hexValue hs) :=
  readDigits_map (hexDigit_hexChar capital) hne
end

/-! ## The text of a line -/

section
variable {gap pad trail tail tsText rssiText : List Char} (hgap : ∀ c ∈ gap, isBlank c = true) (hne : gap ≠ [])
  (htrail : ∀ c ∈ trail, isBlank c = true) (htail : IsTail tail)
include hgap hne htrail htail

theorem parseLine_bcn_text {n : Nat} {z : Int} (hpad : ∀ c ∈ pad, isBlank c = true)
    (hts : PlainText tsText) (hn : readTs tsText = some n) (hrssi : PlainText rssiText) (hz : readRssi rssiText = some z) :
    parseLine (['B', 'C', 'N'] ++ gap ++ tsText ++ [','] ++ pad ++ rssiText ++ trail ++ tail) = some (.bcn n z) := by
  have hargs : Unpadded (tsText ++ (',' :: pad) ++ rssiText) := hts.unpadded.append hrssi.unpadded _
  have hcomment : ∀ c ∈ tsText ++ (',' :: pad) ++ rssiText, (c != ';') = true := by
    simp only [List.mem_append, List.mem_cons]
    rintro c ((hc | rfl | hc) | hc)
    · exact hts.not_comment hc
    · decide
    · exact not_comment_of_isBlank (hpad c hc)
    · exact hrssi.not_comment hc
  have hplain : PlainText ['B', 'C', 'N'] := plainText_of_all (List.cons_ne_nil _ _) rfl
  obtain ⟨hname, hparts⟩ := line_of_name_args htrail htail hplain hgap hne hargs hcomment
  have htrimTs := trimBlanks_front (List.forall_mem_nil _) hts.unpadded
  have htrimRssi := trimBlanks_front hpad hrssi.unpadded
  simp only [List.append_assoc, List.cons_append, List.nil_append] at hname hparts htrimTs ⊢
  exact parseLine_bcn hname hparts (fun _ => hts.not_comma) (htrimTs.symm ▸ hn) (htrimRssi.symm ▸ hz)

theorem parseLine_bcnx_text {n : Nat} (hts : PlainText tsText) (hn : readTs tsText = some n) :
    parseLine (['B', 'C', 'N', 'X'] ++ gap ++ tsText ++ trail ++ tail) = some (.bcnx n) := by
  have hplain : PlainText ['B', 'C', 'N', 'X'] := plainText_of_all (List.cons_ne_nil _ _) rfl
  obtain ⟨hname, hparts⟩ := line_of_name_args htrail htail hplain hgap hne hts.unpadded fun _ => hts.not_comment
  exact parseLine_bcnx hname (hparts.symm ▸ hn)
end

/-- Settles O55: the separators cut the text into its name and its numerals, which are plain texts, and each numeral is read
digit by digit. -/
theorem parsedTextNamesItsNumbers : Obligations.ParsedTextNamesItsNumbers := by
  intro ds es hs capital gap pad trail tail hds hes hhs hne hblanks htail
  have hgap : ∀ c ∈ gap, isBlank c = true := fun c hc => hblanks c (by simp [hc])
  have hpad : ∀ c ∈ pad, isBlank c = true := fun c hc => hblanks c (by simp [hc])
  have htrail : ∀ c ∈ trail, isBlank c = true := fun c hc => hblanks c (by simp [hc])
  have hts : ∀ ts ∈ [(decText ds, decValue ds), (['0', 'x'] ++ hexText capital hs, hexValue hs)],
      PlainText ts.1 ∧ readTs ts.1 = some ts.2 :=
    List.forall_mem_cons.2 ⟨⟨plainText_decText hds, readTs_decText hds⟩, List.forall_mem_singleton.2
      ⟨((plainText_hexText capital hhs).cons (by decide)).cons (by decide), readTs_hexText capital hhs⟩⟩
  have hrssi : ∀ rssi ∈ [(decText es, (decValue es : Int)), ('-' :: decText es, -(decValue es : Int))],
      PlainText rssi.1 ∧ readRssi rssi.1 = some rssi.2 :=
    List.forall_mem_cons.2 ⟨⟨plainText_decText hes, readRssi_decText hes⟩, List.forall_mem_singleton.2
      ⟨(plainText_decText hes).cons (by decide), readRssi_neg_decText hes⟩⟩
  refine ⟨fun ts hmem => ⟨fun rssi hmem' => ?bcn, ?bcnx⟩, ?dtick, ?rdest, ?rst⟩
  case bcn =>
    exact parseLine_bcn_text hgap hne htrail htail hpad (hts ts hmem).1 (hts ts hmem).2 (hrssi rssi hmem').1
      (hrssi rssi hmem').2
  case bcnx => exact parseLine_bcnx_text hgap hne htrail htail (hts ts hmem).1 (hts ts hmem).2
  case dtick =>
    have hplain : PlainText ['D', 'T', 'I', 'C', 'K'] := plainText_of_all (List.cons_ne_nil _ _) rfl
    obtain ⟨hname, hargs⟩ := line_of_name htrail htail hplain
    exact parseLine_dtick hname hargs
  case rdest =>
    have hplain : PlainText ['R', 'D', 'E', 'S', 'T'] := plainText_of_all (List.cons_ne_nil _ _) rfl
    obtain ⟨hname, hargs⟩ := line_of_name htrail htail hplain
    exact parseLine_rdest hname hargs
  case rst =>
    have hplain : PlainText ['R', 'S', 'T'] := plainText_of_all (List.cons_ne_nil _ _) rfl
    obtain ⟨hname, hargs⟩ := line_of_name htrail htail hplain
    exact parseLine_rst hname hargs

end Sys2Proof
end
